-- ==== Sys2Proof/Word.lean ====
section
/-! DEFINITION. The word types of the block: everything the spec treats as bits (00_scope.md R11, R12). -/

namespace Sys2Proof

/-- One byte of the link, of a payload, or an endpoint address (20_memory.md R81, R87). -/
abbrev Byte := BitVec 8

/-- A 16-bit value: a command word, a length field, a CRC (30_encoding.md R100, R120). -/
abbrev Word := BitVec 16

/-- A sequence or acknowledgement number, modulo 8 (00_scope.md R13). -/
abbrev Seq := BitVec 3

/-- A byte string in wire order (00_scope.md R12). -/
abbrev Bytes := List Byte

end Sys2Proof
end

