-- ==== Sys2Proof/Syntax.lean ====
section
/-! DEFINITION. The instructions: one constructor per row of spec/opcode_table.json, seven received frame kinds and
twelve host command words. -/

namespace Sys2Proof

/-- A frame as the deframer hands it to the demultiplexer, less its control byte: 43_frame_dispatch.md R210's
operands a, P and corrupt. -/
structure RxFrame where
  addr : Byte
  payload : Bytes
  corrupt : Bool
  deriving DecidableEq, Repr

/-- The causes of FAIL (30_encoding.md R122); encoding 3 is reserved and is no cause. -/
inductive FailCause where
  | remoteError
  | securityIncident
  | destUnreach
  deriving DecidableEq, Repr

/-- The four states of `session_state` (10_state.md R34). -/
inductive SessionState where
  | notReady
  | initializing
  | initialized
  | resetting
  deriving DecidableEq, Repr

/-- The mnemonics of the host commands (30_encoding.md R121), as CmdOk and CmdReject carry them. -/
inductive Mnemonic where
  | opOpen
  | opClose
  | opWrite
  | opUiSend
  | opRxPop
  | opStatus
  | opFail
  | opLinkReset
  | opSecState
  | opRxByte
  | opTxPull
  | opTick
  deriving DecidableEq, Repr

/-- What a refused command reports as its op: its mnemonic, or the raw value of a reserved op
(30_encoding.md R123). -/
inductive CmdOp where
  | cmd (m : Mnemonic)
  | raw (op : BitVec 4)
  deriving DecidableEq, Repr

/-- The instructions of the block. -/
inductive Instr where
  /-- I: an information frame (43_frame_dispatch.md R215) -/
  | iFrame (f : RxFrame) (seq : Seq) (pf : Bool) (ack : Seq)
  /-- RR (43_frame_dispatch.md R219) -/
  | rr (f : RxFrame) (pf : Bool) (ack : Seq)
  /-- REJ (43_frame_dispatch.md R220) -/
  | rej (f : RxFrame) (pf : Bool) (ack : Seq)
  /-- UI (43_frame_dispatch.md R221) -/
  | ui (f : RxFrame)
  /-- UPF (43_frame_dispatch.md R226) -/
  | upf (f : RxFrame)
  /-- UACK (43_frame_dispatch.md R225) -/
  | uack (f : RxFrame)
  /-- URESET (43_frame_dispatch.md R222) -/
  | ureset (f : RxFrame)
  /-- OPEN (45_endpoint_cmds.md R300) -/
  | openEp (e : Byte) (window : BitVec 3) (enc : Bool)
  /-- CLOSE (45_endpoint_cmds.md R302) -/
  | closeEp (e : Byte)
  /-- WRITE (44_arq.md R255) -/
  | write (e : Byte) (payload : Bytes)
  /-- UI_SEND (45_endpoint_cmds.md R315) -/
  | uiSend (e : Byte) (payload : Bytes)
  /-- RX_POP (45_endpoint_cmds.md R312) -/
  | rxPop (e : Byte)
  /-- STATUS (45_endpoint_cmds.md R313) -/
  | status (e : Byte)
  /-- FAIL (45_endpoint_cmds.md R306) -/
  | fail (e : Byte) (cause : FailCause)
  /-- LINK_RESET (45_endpoint_cmds.md R309) -/
  | linkReset
  /-- SEC_STATE (45_endpoint_cmds.md R314) -/
  | secState (session : SessionState)
  /-- RX_BYTE (42_deframer_rx.md R181) -/
  | rxByte (b : Byte)
  /-- TX_PULL (41_framer_tx.md R165) -/
  | txPull
  /-- TICK (44_arq.md R280) -/
  | tick
  deriving DecidableEq, Repr

end Sys2Proof
end

