-- ==== Sys2Proof/Machine/Operands.lean ====
section
/-! DEFINITION. The operand forms: the fields of a command word, of a control byte and of a frame header, read and
built (00_scope.md R11, R12; 30_encoding.md R100 to R122). -/

namespace Sys2Proof.Machine

/-! ## Byte order -/

/-- `le16`: the low byte first (00_scope.md R12; 20_memory.md R82). -/
def le16 (x : Word) : Bytes := [x.setWidth 8, (x >>> 8).setWidth 8]

/-- `rd_le16` of the two bytes of a field, in wire order (00_scope.md R12). -/
def rdLe16 (lo hi : Byte) : Word := lo.setWidth 16 ||| (hi.setWidth 16 <<< 8)

/-! ## The control byte -/

/-- The frame kinds of 30_encoding.md R109. -/
inductive FrameKind where
  | i
  | rr
  | rej
  | ui
  | upf
  | uack
  | ureset
  | unknown
  deriving DecidableEq, Repr

/-- `c[7:6]`. -/
def formatOf (c : Byte) : BitVec 2 := c.extractLsb' 6 2

/-- `c[5:4]` of an S-frame (30_encoding.md R107). -/
def functionOf (c : Byte) : BitVec 2 := c.extractLsb' 4 2

/-- `c[5:0]` of a U-frame (30_encoding.md R108). -/
def utypeOf (c : Byte) : BitVec 6 := c.extractLsb' 0 6

/-- `seq = c[6:4]` of an I-frame (30_encoding.md R106). -/
def seqOf (c : Byte) : Seq := c.extractLsb' 4 3

/-- `pf = c[3]` of an I- or S-frame (30_encoding.md R106, R107). -/
def pfOf (c : Byte) : Bool := c.getLsbD 3

/-- `ack = c[2:0]` of an I- or S-frame (30_encoding.md R106, R107). -/
def ackOf (c : Byte) : Seq := c.extractLsb' 0 3

/-- `kind(c)`: total on all 256 control bytes (30_encoding.md R109; log 14). -/
def kind (c : Byte) : FrameKind :=
  if c.getLsbD 7 = false then .i
  else if formatOf c = 0b10 then
    if functionOf c = 0b00 then .rr
    else if functionOf c = 0b01 then .rej
    else .unknown
  else if utypeOf c = 0x00 then .ui
  else if utypeOf c = 0x04 then .upf
  else if utypeOf c = 0x0E then .uack
  else if utypeOf c = 0x31 then .ureset
  else .unknown

/-- `ctrl_I` (30_encoding.md R106). -/
def ctrlI (seq ack : Seq) (pf : Bool) : Byte :=
  (seq.setWidth 8 <<< 4) ||| ((BitVec.ofBool pf).setWidth 8 <<< 3) ||| ack.setWidth 8

/-- `ctrl_S` (30_encoding.md R107). -/
def ctrlS (fn : BitVec 2) (ack : Seq) (pf : Bool) : Byte :=
  0x80 ||| (fn.setWidth 8 <<< 4) ||| ((BitVec.ofBool pf).setWidth 8 <<< 3) ||| ack.setWidth 8

/-- `ctrl_U` (30_encoding.md R108). -/
def ctrlU (utype : BitVec 6) : Byte := 0xC0 ||| utype.setWidth 8

/-! ## The frame header -/

/-- The flag byte, the first of every frame (30_encoding.md R100). -/
def flagByte : Byte := 0x14

/-- The seven header bytes of 30_encoding.md R100, by offset. -/
structure Header where
  flag : Byte
  addr : Byte
  lenLo : Byte
  lenHi : Byte
  control : Byte
  hcsLo : Byte
  hcsHi : Byte
  deriving DecidableEq, Repr

/-- The header at the front of a buffer, if the buffer holds seven bytes. -/
def headerAt : Bytes → Option Header
  | f :: a :: l0 :: l1 :: c :: h0 :: h1 :: _ => some ⟨f, a, l0, l1, c, h0, h1⟩
  | _ => none

/-- The length field L (30_encoding.md R101). -/
def Header.length (h : Header) : Nat := (rdLe16 h.lenLo h.lenHi).toNat

/-! ## The command word -/

/-- `w[15:12]` (30_encoding.md R120). -/
def opOf (w : Word) : BitVec 4 := w.extractLsb' 12 4

/-- `w[11:8]` (30_encoding.md R120). -/
def argOf (w : Word) : BitVec 4 := w.extractLsb' 8 4

/-- `w[7:0]`, the endpoint, or the data byte of RX_BYTE (30_encoding.md R120). -/
def epOf (w : Word) : Byte := w.extractLsb' 0 8

/-- OPEN's `enc = w[11]` (30_encoding.md R122). -/
def encOf (w : Word) : Bool := w.getLsbD 11

/-- OPEN's `window = w[10:8]` (30_encoding.md R122). -/
def windowOf (w : Word) : BitVec 3 := w.extractLsb' 8 3

/-- `w[11:10]`, which must be zero in FAIL and SEC_STATE (30_encoding.md R122). -/
def argHighOf (w : Word) : BitVec 2 := w.extractLsb' 10 2

/-- `w[9:8]`: FAIL's cause, SEC_STATE's session state (30_encoding.md R122). -/
def argLowOf (w : Word) : BitVec 2 := w.extractLsb' 8 2

/-- FAIL's cause; encoding 3 is reserved (30_encoding.md R122). -/
def failCauseOf (v : BitVec 2) : Option FailCause :=
  if v = 0 then some .remoteError
  else if v = 1 then some .securityIncident
  else if v = 2 then some .destUnreach
  else none

/-- The encoding of FAIL's cause (30_encoding.md R122). -/
def failCauseCode : FailCause → BitVec 2
  | .remoteError => 0
  | .securityIncident => 1
  | .destUnreach => 2

/-- The session state of an encoding (10_state.md R34). -/
def sessionOf (v : BitVec 2) : SessionState :=
  if v = 0 then .notReady
  else if v = 1 then .initializing
  else if v = 2 then .initialized
  else .resetting

/-- The encoding of a session state (10_state.md R34). -/
def sessionCode : SessionState → BitVec 2
  | .notReady => 0
  | .initializing => 1
  | .initialized => 2
  | .resetting => 3

/-- The command word with these three fields (30_encoding.md R120). -/
def commandWord (op arg : BitVec 4) (ep : Byte) : Word :=
  (op.setWidth 16 <<< 12) ||| (arg.setWidth 16 <<< 8) ||| ep.setWidth 16

end Sys2Proof.Machine
end

