-- ==== Sys2Proof/Machine/Crc.lean ====
section
/-! DEFINITION. The CRC unit: CRC-16/CCITT and the header and payload checks built on it (40_crc.md). -/

namespace Sys2Proof.Machine

/-- One shift of the CRC register: the polynomial 0x1021 enters when bit 15 leaves (40_crc.md R140). -/
def crcShift (c : Word) : Word := if c.getLsbD 15 then (c <<< 1) ^^^ 0x1021 else c <<< 1

/-- `n` shifts of the CRC register. -/
def crcShifts : Nat → Word → Word
  | 0, c => c
  | n + 1, c => crcShifts n (crcShift c)

/-- One byte: it enters at the top, and eight shifts follow (40_crc.md R140). -/
def crcByte (c : Word) (b : Byte) : Word := crcShifts 8 (c ^^^ (b.setWidth 16 <<< 8))

/-- `crc16` (40_crc.md R140): init 0, no reflection, xor-out 0. -/
def crc16 (B : Bytes) : Word := B.foldl crcByte 0

/-- The byte-at-a-time form of 40_crc.md R141, with `T[n] = crc16([n])`. -/
def crcStep (c : Word) (b : Byte) : Word := (c <<< 8) ^^^ crc16 [(c >>> 8).setWidth 8 ^^^ b]

/-- `hcs_gen` of the five header bytes before the HCS (40_crc.md R144). -/
def hcsGen (H5 : Bytes) : Bytes := le16 (crc16 H5)

/-- `fcs_gen` of a payload (40_crc.md R144). -/
def fcsGen (P : Bytes) : Bytes := le16 (crc16 P)

/-- The header bytes the HCS covers, the flag included (30_encoding.md R102). -/
def Header.covered (h : Header) : Bytes := [h.flag, h.addr, h.lenLo, h.lenHi, h.control]

/-- `hcs_ok` (40_crc.md R142). -/
def hcsOk (h : Header) : Bool := crc16 h.covered == rdLe16 h.hcsLo h.hcsHi

/-- `fcs_ok` of a payload and its two FCS bytes (40_crc.md R143). -/
def fcsOk (P : Bytes) (fcsLo fcsHi : Byte) : Bool := crc16 P == rdLe16 fcsLo fcsHi

end Sys2Proof.Machine
end

