-- ==== Sys2Proof/WellFormed.lean ====
section
/-! DEFINITION. Which terms of `Instr` stand for an instruction the encodings can carry. Every other bound (8-bit
addresses, 3-bit numbers, the legal causes and session states) is in the types. -/

namespace Sys2Proof

/-- The length field and the payload channel carry 0..65535 bytes (30_encoding.md R100, R120). -/
def payloadFits (P : Bytes) : Bool := decide (P.length ≤ 65535)

/-- A frame the encoding can carry: its length fits the length field, and it is marked corrupt only if it has an
FCS to fail, that is, a payload (30_encoding.md R101; 42_deframer_rx.md R186). -/
def RxFrame.wf (f : RxFrame) : Bool := payloadFits f.payload && (!f.corrupt || !f.payload.isEmpty)

/-- The instruction has an encoding. -/
def Instr.wf : Instr → Bool
  | .iFrame f _ _ _ => f.wf
  | .rr f _ _ => f.wf
  | .rej f _ _ => f.wf
  | .ui f => f.wf
  | .upf f => f.wf
  | .uack f => f.wf
  | .ureset f => f.wf
  | .openEp _ _ _ => true
  | .closeEp _ => true
  | .write _ P => payloadFits P
  | .uiSend _ P => payloadFits P
  | .rxPop _ => true
  | .status _ => true
  | .fail _ _ => true
  | .linkReset => true
  | .secState _ => true
  | .rxByte _ => true
  | .txPull => true
  | .tick => true

end Sys2Proof
end

