-- ==== Sys2Proof/Decode.lean ====
section
/-! DEFINITION. The decoder and the encoder of the two encodings: the 16-bit host command word (30_encoding.md R120
to R123) and the wire frame (30_encoding.md R100 to R113; 41_framer_tx.md R160). -/

namespace Sys2Proof

open Machine

/-! ## Command words -/

/-- A command word the block refuses with CmdReject(op, ep, BadCommand) (30_encoding.md R123). -/
structure BadCommand where
  op : CmdOp
  ep : Byte
  deriving DecidableEq, Repr

/-- The command if its must-be-zero bits are 0, else the refusal that names it (30_encoding.md R122, R123). -/
def requireZero (zero : Bool) (m : Mnemonic) (w : Word) (i : Instr) : Except BadCommand Instr :=
  if zero then .ok i else .error ⟨.cmd m, epOf w⟩

/-- FAIL: its must-be-zero bits and its cause (30_encoding.md R122, R123). -/
def decodeFail (w : Word) : Except BadCommand Instr :=
  match failCauseOf (argLowOf w) with
  | some cause => requireZero (argHighOf w == 0) .opFail w (.fail (epOf w) cause)
  | none => .error ⟨.cmd .opFail, epOf w⟩

/-- The command a word and its payload spell, or the refusal of the word (30_encoding.md R120 to R123). Only WRITE
and UI_SEND read the payload (log 13). -/
def decodeCommand (w : Word) (P : Bytes) : Except BadCommand Instr :=
  match (opOf w).toNat with
  | 0x1 => .ok (.openEp (epOf w) (windowOf w) (encOf w))
  | 0x2 => requireZero (argOf w == 0) .opClose w (.closeEp (epOf w))
  | 0x3 => requireZero (argOf w == 0) .opWrite w (.write (epOf w) P)
  | 0x4 => requireZero (argOf w == 0) .opUiSend w (.uiSend (epOf w) P)
  | 0x5 => requireZero (argOf w == 0) .opRxPop w (.rxPop (epOf w))
  | 0x6 => requireZero (argOf w == 0) .opStatus w (.status (epOf w))
  | 0x7 => decodeFail w
  | 0x8 => requireZero (argOf w == 0 && epOf w == 0) .opLinkReset w .linkReset
  | 0x9 => requireZero (argHighOf w == 0 && epOf w == 0) .opSecState w (.secState (sessionOf (argLowOf w)))
  | 0xB => requireZero (argOf w == 0) .opRxByte w (.rxByte (epOf w))
  | 0xC => requireZero (argOf w == 0 && epOf w == 0) .opTxPull w .txPull
  | 0xD => requireZero (argOf w == 0 && epOf w == 0) .opTick w .tick
  | _ => .error ⟨.raw (opOf w), epOf w⟩

/-! ## Frames -/

/-- Why a byte string is no frame of the block. -/
inductive FrameReject where
  /-- fewer than the seven header bytes (30_encoding.md R100) -/
  | shortHeader
  /-- offset 0 is not 0x14 (30_encoding.md R100) -/
  | badFlag
  /-- the HCS does not match (30_encoding.md R102) -/
  | badHcs
  /-- the bytes after the header are not L payload bytes and an FCS, or none if L = 0 (30_encoding.md R101) -/
  | badLength
  /-- the control byte has no kind (30_encoding.md R110) -/
  | unknownType
  deriving DecidableEq, Repr

/-- The frame instruction of an address, a control byte, a payload and a corrupt marker (30_encoding.md R105 to
R109; the operands of 43_frame_dispatch.md R210). -/
def decodeFrame (a c : Byte) (P : Bytes) (corrupt : Bool) : Except FrameReject Instr :=
  match kind c with
  | .i => .ok (.iFrame ⟨a, P, corrupt⟩ (seqOf c) (pfOf c) (ackOf c))
  | .rr => .ok (.rr ⟨a, P, corrupt⟩ (pfOf c) (ackOf c))
  | .rej => .ok (.rej ⟨a, P, corrupt⟩ (pfOf c) (ackOf c))
  | .ui => .ok (.ui ⟨a, P, corrupt⟩)
  | .upf => .ok (.upf ⟨a, P, corrupt⟩)
  | .uack => .ok (.uack ⟨a, P, corrupt⟩)
  | .ureset => .ok (.ureset ⟨a, P, corrupt⟩)
  | .unknown => .error .unknownType

/-- What follows a header: the payload and whether its FCS fails, if the bytes are exactly as many as L says
(30_encoding.md R101, R103; 42_deframer_rx.md R186). -/
def decodeBody (L : Nat) (rest : Bytes) : Except FrameReject (Bytes × Bool) :=
  if L = 0 then
    match rest with
    | [] => .ok ([], false)
    | _ :: _ => .error .badLength
  else
    match rest.drop L with
    | [f0, f1] => .ok (rest.take L, !fcsOk (rest.take L) f0 f1)
    | _ => .error .badLength

/-- The frame instruction a byte string spells, checked in the deframer's order: flag, HCS, length, FCS
(42_deframer_rx.md R182, R184, R186). -/
def decodeFrameBytes (bs : Bytes) : Except FrameReject Instr :=
  match headerAt bs with
  | none => .error .shortHeader
  | some h =>
    if h.flag ≠ flagByte then .error .badFlag
    else if hcsOk h = false then .error .badHcs
    else
      match decodeBody h.length (bs.drop 7) with
      | .error r => .error r
      | .ok (P, corrupt) => decodeFrame h.addr h.control P corrupt

/-! ## Encoding -/

/-- What spells an instruction: a command word with its payload, or the bytes of a frame. -/
inductive Encoded where
  | command (w : Word) (payload : Bytes)
  | frame (bs : Bytes)
  deriving DecidableEq, Repr

/-- Why an encoded term spells no instruction. -/
inductive DecodeReject where
  | badCommand (b : BadCommand)
  | badFrame (r : FrameReject)
  deriving DecidableEq, Repr

/-- Decode either encoding: total, and rejecting by name. -/
def decode : Encoded → Except DecodeReject Instr
  | .command w P =>
    match decodeCommand w P with
    | .ok i => .ok i
    | .error b => .error (.badCommand b)
  | .frame bs =>
    match decodeFrameBytes bs with
    | .ok i => .ok i
    | .error r => .error (.badFrame r)

/-- The five header bytes before the HCS (30_encoding.md R100). -/
def headerPrefix (a c : Byte) (L : Nat) : Bytes := flagByte :: a :: (le16 (BitVec.ofNat 16 L) ++ [c])

/-- The byte layout of a frame (30_encoding.md R100 to R103; 41_framer_tx.md R160): the header, and if there is a
payload, the payload and its FCS. -/
def frameBytes (a c : Byte) (P : Bytes) : Bytes :=
  headerPrefix a c P.length ++ hcsGen (headerPrefix a c P.length) ++ (if P.isEmpty then [] else P ++ fcsGen P)

/-- `encode(a, c, P)` of 41_framer_tx.md R160; `none` is `Fail(TooLarge)`. -/
def encodeFrame (mtu : Nat) (a c : Byte) (P : Bytes) : Option Bytes :=
  if mtu < P.length then none else some (frameBytes a c P)

/-- The bytes of a frame whose payload fails its FCS: those of `frameBytes` with bit 0 of the FCS flipped. One of
the many encodings of a corrupt frame (log 12). -/
def corruptFrameBytes (a c : Byte) (P : Bytes) : Bytes :=
  headerPrefix a c P.length ++ hcsGen (headerPrefix a c P.length) ++ P ++ le16 (crc16 P ^^^ 1)

/-- The bytes of a received frame with this control byte. -/
def RxFrame.bytes (f : RxFrame) (c : Byte) : Bytes :=
  if f.corrupt then corruptFrameBytes f.addr c f.payload else frameBytes f.addr c f.payload

/-- `utype` of the four U-frames (30_encoding.md R108). -/
def utypeUI : BitVec 6 := 0x00
def utypeUPF : BitVec 6 := 0x04
def utypeUACK : BitVec 6 := 0x0E
def utypeURESET : BitVec 6 := 0x31

/-- The function codes of the S-frames (30_encoding.md R107). -/
def functionRR : BitVec 2 := 0b00
def functionREJ : BitVec 2 := 0b01

/-- The words of an instruction: the inverse of `decode` on well-formed instructions. -/
def encode : Instr → Encoded
  | .iFrame f seq pf ack => .frame (f.bytes (ctrlI seq ack pf))
  | .rr f pf ack => .frame (f.bytes (ctrlS functionRR ack pf))
  | .rej f pf ack => .frame (f.bytes (ctrlS functionREJ ack pf))
  | .ui f => .frame (f.bytes (ctrlU utypeUI))
  | .upf f => .frame (f.bytes (ctrlU utypeUPF))
  | .uack f => .frame (f.bytes (ctrlU utypeUACK))
  | .ureset f => .frame (f.bytes (ctrlU utypeURESET))
  | .openEp e window enc => .command (commandWord 0x1 (BitVec.ofBool enc ++ window) e) []
  | .closeEp e => .command (commandWord 0x2 0 e) []
  | .write e P => .command (commandWord 0x3 0 e) P
  | .uiSend e P => .command (commandWord 0x4 0 e) P
  | .rxPop e => .command (commandWord 0x5 0 e) []
  | .status e => .command (commandWord 0x6 0 e) []
  | .fail e cause => .command (commandWord 0x7 ((0 : BitVec 2) ++ failCauseCode cause) e) []
  | .linkReset => .command (commandWord 0x8 0 0) []
  | .secState session => .command (commandWord 0x9 ((0 : BitVec 2) ++ sessionCode session) 0) []
  | .rxByte b => .command (commandWord 0xB 0 b) []
  | .txPull => .command (commandWord 0xC 0 0) []
  | .tick => .command (commandWord 0xD 0 0) []

/-! ## The opcode table's words -/

/-- The frame that carries a control byte with every other operand zero: address 0, length 0. -/
def tableFrame (w : Nat) : Bytes := frameBytes 0 (BitVec.ofNat 8 w) []

/-- The instruction of the bits of an opcode-table row: an 8-bit row is a control byte, in a frame of address 0 and
length 0; a 16-bit row is a command word, with an empty payload (log 11). -/
def decodeTableWord (nbits w : Nat) : Option Instr :=
  if nbits = 8 then (decode (.frame (tableFrame w))).toOption
  else if nbits = 16 then (decode (.command (BitVec.ofNat 16 w) [])).toOption
  else none

end Sys2Proof
end

