-- ==== Sys2Proof/Config.lean ====
section
/-! DEFINITION. What an implementation of the block fixes: the parameters of 00_scope.md R8. R10's constants
(flag 0x14, header of 7 bytes, 8-bit addresses, modulo 8, window at most 7) are structure and no parameters. -/

namespace Sys2Proof

/-- The configured parameters of 00_scope.md R8 with the spec's defaults. Times are milliseconds. The two
parameters marked OPEN there have no default. -/
structure Config where
  /-- cap on the length field of a frame -/
  mtu : Nat := 4087
  rtoInit : Nat := 100
  rtoMax : Nat := 5000
  maxRetries : Nat := 5
  ackDelay : Nat := 50
  violCount : Nat := 10
  violWindow : Nat := 1000
  /-- `PENDING_CAP`, OPEN (92_eei_decisions.md D35) -/
  pendingCap : Nat
  /-- `RX_QUEUE_CAP`, OPEN (92_eei_decisions.md D36) -/
  rxQueueCap : Nat
  deriving DecidableEq, Repr

/-- The ranges 00_scope.md R8 gives the parameters. -/
structure Config.Valid (c : Config) : Prop where
  mtu_le : c.mtu ≤ 65535
  rtoInit_pos : 1 ≤ c.rtoInit
  rtoInit_le : c.rtoInit ≤ c.rtoMax
  ackDelay_pos : 1 ≤ c.ackDelay
  violCount_pos : 1 ≤ c.violCount
  violWindow_pos : 1 ≤ c.violWindow
  rxQueueCap_pos : 1 ≤ c.rxQueueCap

/-- The implementation's `PENDING_CAP`: a free value (log 1). -/
opaque Config.openPendingCap : Nat

/-- The implementation's `RX_QUEUE_CAP`, less one (R8: at least 1): a free value (log 1). -/
opaque Config.openRxQueueCapPred : Nat

/-- The parameters of an unspecified implementation: R8's defaults, and free values for the OPEN two. -/
def Config.implementation : Config :=
  { pendingCap := Config.openPendingCap, rxQueueCap := Config.openRxQueueCapPred + 1 }

end Sys2Proof
end

