-- ==== Sys2Proof/Machine/State.lean ====
section
/-! DEFINITION. The state of the block (10_state.md), its output events (60_exceptions.md R355), the reasons a step
can stop, and the block reset (70_reset_and_hazards.md R380). -/

namespace Sys2Proof.Machine

/-! ## Parts of the state -/

/-- `rx_phase` (10_state.md R33; 42_deframer_rx.md R180). -/
inductive RxPhase where
  | hunt
  | header
  | body
  deriving DecidableEq, Repr

/-- The Error subtypes of an endpoint's state (10_state.md R40). -/
inductive ErrorKind where
  | remoteError
  | securityIncident
  | faultNoAck
  | destUnreach
  deriving DecidableEq, Repr

/-- `ep[e].state`: the eight legal values of 10_state.md R40 (log 4). -/
inductive EpState where
  | closed
  | opened
  | closing
  | connectionLost
  | error (x : ErrorKind)
  deriving DecidableEq, Repr

/-- A timer record (10_state.md R50, R53). -/
structure Timer where
  armed : Bool
  deadline : Nat
  armSeq : Nat
  deriving DecidableEq, Repr

/-- The reset value of a timer (10_state.md R50, R53). -/
def Timer.off : Timer := { armed := false, deadline := 0, armSeq := 0 }

/-- An entry of a retransmit queue: an I-frame as first sent, and when (10_state.md R47). -/
structure RtxEntry where
  seq : Seq
  frame : Bytes
  sendTime : Nat
  deriving DecidableEq, Repr

/-- An endpoint record (10_state.md R37, R40 to R54). -/
structure Endpoint where
  /-- R40 -/
  state : EpState
  /-- R41 -/
  awaitingUack : Bool
  /-- R42 -/
  window : BitVec 3
  /-- R43 -/
  encrypted : Bool
  /-- R44 -/
  nextTx : Seq
  /-- R45 -/
  expectedRx : Seq
  /-- R46 -/
  outstanding : BitVec 8
  /-- R47, oldest first -/
  rtxQueue : List RtxEntry
  /-- R48, ms -/
  rto : Nat
  /-- R49 -/
  retryCount : Nat
  /-- R50 -/
  rtxTimer : Timer
  /-- R51 -/
  ackPending : Bool
  /-- R52, oldest first -/
  pending : List Bytes
  /-- R53 -/
  ackTimer : Timer
  /-- R54, oldest first -/
  rxQueue : List Bytes
  deriving DecidableEq, Repr

/-- The reset value of an endpoint record (70_reset_and_hazards.md R380). -/
def Endpoint.reset (rtoInit : Nat) : Endpoint where
  state := .closed
  awaitingUack := false
  window := 1
  encrypted := false
  nextTx := 0
  expectedRx := 0
  outstanding := 0
  rtxQueue := []
  rto := rtoInit
  retryCount := 0
  rtxTimer := Timer.off
  ackPending := false
  pending := []
  ackTimer := Timer.off
  rxQueue := []

/-! ## Output events -/

/-- Reasons of a protocol violation (60_exceptions.md R355, R357). -/
inductive ViolReason where
  | unknownType
  | malformed
  | oversize
  | reservedAddress
  | uiAddress
  deriving DecidableEq, Repr

/-- Reasons of RxDrop (60_exceptions.md R355). -/
inductive DropReason where
  | notOpen
  | gap
  | duplicate
  | rxFull
  | corrupt
  | ignored
  deriving DecidableEq, Repr

/-- Results of WRITE (60_exceptions.md R355). -/
inductive WriteCode where
  | sent (seq : Seq)
  | queued
  | rejTooLarge
  | rejNotOpen
  | rejRetriable
  | rejBusy
  deriving DecidableEq, Repr

/-- Reasons of CmdReject (60_exceptions.md R355). -/
inductive RejectReason where
  | badCommand
  | badEndpoint
  | badWindow
  | alreadyOpen
  | sticky
  | notOpen
  | tooLarge
  deriving DecidableEq, Repr

/-- Causes of a link reset (60_exceptions.md R355). -/
inductive ResetCause where
  | host
  | peerReset
  | systemEndpoint
  | violations
  deriving DecidableEq, Repr

/-- The twelve fields of a Status event, in 45_endpoint_cmds.md R313's order. -/
structure StatusReport where
  ep : Byte
  state : EpState
  awaitingUack : Bool
  window : BitVec 3
  encrypted : Bool
  nextTx : Seq
  expectedRx : Seq
  outstanding : BitVec 8
  pendingLen : Nat
  rxQueueLen : Nat
  retryCount : Nat
  rto : Nat
  deriving DecidableEq, Repr

/-- The output events of the block (60_exceptions.md R355); they have no numeric codes. -/
inductive Event where
  | txByte (b : Byte)
  | txIdle
  | garbage (n : Nat)
  | frameCorrupt (e : Byte)
  | violation (r : ViolReason)
  | rxDrop (e : Byte) (r : DropReason)
  | ackInvalid (e : Byte) (ack : Seq)
  | delivered (e : Byte) (seq : Option Seq) (n : Nat)
  | acked (e : Byte) (n : Nat)
  | retransmit (e : Byte) (seq : Seq)
  | timeout (e : Byte) (n : Nat)
  | writeResult (e : Byte) (w : WriteCode)
  | pendingSent (e : Byte) (seq : Seq)
  | epState (e : Byte) (s : EpState)
  | connLost (e : Byte)
  | epReset (e : Byte)
  | opened (e : Byte)
  | linkReset (c : ResetCause)
  | cmdOk (op : Mnemonic) (e : Byte)
  | cmdReject (op : CmdOp) (e : Byte) (r : RejectReason)
  | rxData (e : Byte) (payload : Bytes)
  | rxEmpty (e : Byte)
  | status (report : StatusReport)
  deriving DecidableEq, Repr

/-! ## The state -/

/-- One input event: a command word, and the payload on the host payload channel, empty for every command but
WRITE and UI_SEND (30_encoding.md R120). -/
structure InputEvent where
  word : Word
  payload : Bytes
  deriving DecidableEq, Repr

/-- The state of the block: the tuple of 10_state.md R30, and the model's own fields `cfg`, `input` and `output`. -/
structure State where
  /-- the configuration, which no step writes (00_scope.md R8; log 1) -/
  cfg : Config
  /-- R31, ms -/
  now : Nat
  /-- R32 -/
  armCounter : Nat
  /-- R33 -/
  rxPhase : RxPhase
  /-- R33 -/
  rxBuf : Bytes
  /-- R33 -/
  rxNeed : Nat
  /-- R34 -/
  session : SessionState
  /-- R35, next frame first -/
  txQueue : List Bytes
  /-- R35 -/
  txPos : Nat
  /-- R36, oldest first -/
  violHist : List Nat
  /-- R37: one record for every address -/
  eps : Vector Endpoint 256
  /-- the input events still to come, next first (00_scope.md R7; log 2) -/
  input : List InputEvent
  /-- the output events so far, oldest first (60_exceptions.md R355; log 3) -/
  output : List Event
  deriving DecidableEq, Repr

/-- The block reset of a block with configuration `cfg` (70_reset_and_hazards.md R380, R381). -/
def State.resetWith (cfg : Config) : State where
  cfg := cfg
  now := 0
  armCounter := 0
  rxPhase := .hunt
  rxBuf := []
  rxNeed := 0
  session := .notReady
  txQueue := []
  txPos := 0
  violHist := []
  eps := Vector.replicate 256 (Endpoint.reset cfg.rtoInit)
  input := []
  output := []

/-- The block right after reset (70_reset_and_hazards.md R380), nothing placed on its input stream. -/
def State.reset : State := State.resetWith Config.implementation

/-! ## Why a step can stop -/

/-- The faults of the model. No reachable state raises one: 60_exceptions.md R350 gives the block no condition that
stops it. Each is for a state outside the cursor ranges of 10_state.md R33 and R35, where a rule would read a byte
past the end of a buffer. -/
inductive Fault where
  /-- raised by TX_PULL: `tx_pos` is not an index of the head frame (10_state.md R35; log 6). Safe: the model stops
  where the spec says nothing. -/
  | txCursor
  /-- raised by RX_BYTE: the deframer's buffer is shorter than the frame the deframer takes it to hold, or it
  expects no byte in BODY (10_state.md R33; log 7). Safe: the model stops where the spec says nothing. -/
  | rxCursor
  deriving DecidableEq, Repr

/-- The refusals of the model. -/
inductive Refusal where
  /-- raised only by an arm of `exec` that has no meaning yet; no arm is left so. Safe: the model stops. -/
  | notModelled (mnemonic : String)
  deriving DecidableEq, Repr

/-- What one instruction answers. -/
abbrev Outcome := Host.Outcome State Fault Refusal

end Sys2Proof.Machine
end

