-- ==== Sys2Proof/Machine/Ops.lean ====
section
/-! DEFINITION. The named operations over the state: endpoint records, timers, output, the TX queue, the flush and
reset procedures, and the one exception of the block, a protocol violation (00_scope.md R14 to R17). -/

namespace Sys2Proof.Machine

/-! ## Encodings of the state's registers -/

/-- The 4-bit encoding of an endpoint state (10_state.md R40). -/
def EpState.code : EpState → BitVec 4
  | .closed => 0
  | .opened => 1
  | .closing => 2
  | .connectionLost => 3
  | .error .remoteError => 4
  | .error .securityIncident => 5
  | .error .faultNoAck => 6
  | .error .destUnreach => 7

/-- The encoding of a deframer phase (10_state.md R33). -/
def RxPhase.code : RxPhase → Nat
  | .hunt => 0
  | .header => 1
  | .body => 2

/-- The Error subtype a FAIL cause leads to (45_endpoint_cmds.md R306). -/
def errorOfCause : FailCause → ErrorKind
  | .remoteError => .remoteError
  | .securityIncident => .securityIncident
  | .destUnreach => .destUnreach

/-! ## Reads and writes of single pieces of state (00_scope.md R14) -/

/-- `ep[e]` (20_memory.md R81: the mapping of addresses is the identity). -/
def State.ep (s : State) (e : Byte) : Endpoint := s.eps[e.toNat]'e.isLt

/-- `ep[e] <- x`. -/
def State.setEp (s : State) (e : Byte) (x : Endpoint) : State := { s with eps := s.eps.set e.toNat x e.isLt }

/-- Rewrites `ep[e]`. -/
def State.modEp (s : State) (e : Byte) (f : Endpoint → Endpoint) : State := s.setEp e (f (s.ep e))

/-- `out(ev)` (00_scope.md R16). -/
def State.out (s : State) (ev : Event) : State := { s with output := s.output ++ [ev] }

/-- `emit_frame(F)` (41_framer_tx.md R164). -/
def State.emitFrame (s : State) (F : Bytes) : State := { s with txQueue := s.txQueue ++ [F] }

/-- Writes the transmit state (10_state.md R35). -/
def State.setTx (s : State) (queue : List Bytes) (pos : Nat) : State := { s with txQueue := queue, txPos := pos }

/-- Writes the deframer state (10_state.md R33). -/
def State.setRx (s : State) (phase : RxPhase) (buf : Bytes) (need : Nat) : State :=
  { s with rxPhase := phase, rxBuf := buf, rxNeed := need }

/-- Writes `viol_hist` (10_state.md R36). -/
def State.setViol (s : State) (hist : List Nat) : State := { s with violHist := hist }

/-- Writes `session_state` (10_state.md R34). -/
def State.setSession (s : State) (v : SessionState) : State := { s with session := v }

/-- Writes `now` (10_state.md R31). -/
def State.setNow (s : State) (t : Nat) : State := { s with now := t }

/-- Writes `arm_counter` (10_state.md R32). -/
def State.setArmCounter (s : State) (n : Nat) : State := { s with armCounter := n }

/-- Replaces the input stream still to come (log 2). -/
def State.setInput (s : State) (input : List InputEvent) : State := { s with input := input }

/-! ## Timers (00_scope.md R17) -/

/-- The timer record that `arm` writes: its deadline, and the stamp that breaks ties. -/
def State.armedTimer (s : State) (delay : Nat) : Timer :=
  { armed := true, deadline := s.now + delay, armSeq := s.armCounter }

/-- `arm(ep[e].rtx_timer, delay)`. -/
def armRtx (e : Byte) (delay : Nat) (s : State) : State :=
  (s.modEp e fun x => { x with rtxTimer := s.armedTimer delay }).setArmCounter (s.armCounter + 1)

/-- `arm(ep[e].ack_timer, delay)`. -/
def armAck (e : Byte) (delay : Nat) (s : State) : State :=
  (s.modEp e fun x => { x with ackTimer := s.armedTimer delay }).setArmCounter (s.armCounter + 1)

/-- `cancel(ep[e].rtx_timer)`: back to the timer's reset value (log 5). -/
def cancelRtx (e : Byte) (s : State) : State := s.modEp e fun x => { x with rtxTimer := Timer.off }

/-- `cancel(ep[e].ack_timer)`: back to the timer's reset value (log 5). -/
def cancelAck (e : Byte) (s : State) : State := s.modEp e fun x => { x with ackTimer := Timer.off }

/-! ## The endpoint table in ascending order -/

/-- The endpoint ids `first .. 255`, ascending. -/
def endpointsFrom (first : Nat) : List Byte := ((List.range 256).drop first).map (BitVec.ofNat 8)

/-! ## Flushes and resets -/

/-- `arq_flush` on one record: ARQ state back to its reset values (44_arq.md R266). -/
def Endpoint.flushed (rtoInit : Nat) (x : Endpoint) : Endpoint :=
  { x with
    nextTx := 0
    expectedRx := 0
    outstanding := 0
    rtxQueue := []
    rto := rtoInit
    retryCount := 0
    rtxTimer := Timer.off
    ackPending := false
    pending := []
    ackTimer := Timer.off }

/-- A flushed record with its RX queue cleared, its U-Ack wait ended and a new state: what leaving Open makes of it
(45_endpoint_cmds.md R302, R307, R310). -/
def Endpoint.dropped (rtoInit : Nat) (st : EpState) (x : Endpoint) : Endpoint :=
  { x.flushed rtoInit with rxQueue := [], awaitingUack := false, state := st }

/-- `arq_flush(e)` (44_arq.md R266). -/
def arqFlush (e : Byte) (s : State) : State := s.modEp e (Endpoint.flushed s.cfg.rtoInit)

/-- `fail_endpoint(e, x)` (45_endpoint_cmds.md R307). -/
def failEndpoint (e : Byte) (x : ErrorKind) (s : State) : State :=
  (s.modEp e (Endpoint.dropped s.cfg.rtoInit (.error x))).out (.epState e (.error x))

/-- One endpoint's part of a link reset (45_endpoint_cmds.md R310). -/
def linkResetEp (s : State) (e : Byte) : State :=
  if (s.ep e).state = .closed then s
  else ((s.modEp e (Endpoint.dropped s.cfg.rtoInit .closed)).out (.epState e .closed)).out (.connLost e)

/-- The TX queue trimmed to the frame partly sent (45_endpoint_cmds.md R310; log 16). -/
def trimTx (s : State) : State := s.setTx (if 0 < s.txPos then s.txQueue.take 1 else []) s.txPos

/-- `link_reset_endpoints(first, cause)` (45_endpoint_cmds.md R310). -/
def linkResetEndpoints (first : Nat) (cause : ResetCause) (s : State) : State :=
  ((trimTx ((endpointsFrom first).foldl linkResetEp s)).setViol []).out (.linkReset cause)

/-! ## The exception of the block: a protocol violation (00_scope.md R16; 60_exceptions.md R350, R357)

There is no saved pc, no handler and no return: the event that raised the violation ends after it. -/

/-- The last `n` elements of a list. -/
def lastN (n : Nat) (l : List Nat) : List Nat := l.drop (l.length - n)

/-- The violation history after a violation now (60_exceptions.md R357). -/
def violHistAfter (s : State) : List Nat := lastN s.cfg.violCount (s.violHist ++ [s.now])

/-- The threshold test: a full history spans less than VIOL_WINDOW (60_exceptions.md R357; log 8). -/
def violTripped (s : State) (hist : List Nat) : Bool :=
  match hist with
  | [] => false
  | oldest :: _ => decide (hist.length = s.cfg.violCount) && decide (s.now < oldest + s.cfg.violWindow)

/-- `raise ProtocolViolation(r)` (60_exceptions.md R357). -/
def raiseViolation (r : ViolReason) (s : State) : State :=
  let hist := violHistAfter s
  let s' := (s.out (.violation r)).setViol hist
  if violTripped s hist then linkResetEndpoints 0 .violations s' else s'

end Sys2Proof.Machine
end

