-- ==== Sys2Proof/Machine/Flags.lean ====
section
/-! DEFINITION. The conditions the rules test: the status flags of 10_state.md R59 and the predicates over them.
No flag of the block is a side effect of arithmetic. -/

namespace Sys2Proof.Machine

/-- `1 << s` in the outstanding mask (10_state.md R46). -/
def seqBit (n : Seq) : BitVec 8 := 1#8 <<< n.toNat

/-- `popcount(m)` (00_scope.md R13). -/
def popcount (m : BitVec 8) : Nat := ((List.range 8).filter fun i => m.getLsbD i).length

/-- `open_ready(e)` (43_frame_dispatch.md R213). -/
def openReady (s : State) (e : Byte) : Bool := (s.ep e).state == .opened && !(s.ep e).awaitingUack

/-- `gate_ok(e)` (44_arq.md R256). -/
def gateOk (s : State) (e : Byte) : Bool := !(s.ep e).encrypted || s.session == .initialized

/-- `can_send(e)` (44_arq.md R256). -/
def canSend (s : State) (e : Byte) : Bool :=
  (s.ep e).state == .opened && !(s.ep e).awaitingUack
    && decide (popcount (s.ep e).outstanding < (s.ep e).window.toNat) && gateOk s e

/-- Where a received sequence number stands against the expected one (43_frame_dispatch.md R215). -/
inductive RxClass where
  | inOrder
  | gap
  | duplicate
  deriving DecidableEq, Repr

/-- The classification by `d = N -₈ expected_rx`: 0, 1..3, 4..7 (43_frame_dispatch.md R215 to R218). -/
def classify (n expected : Seq) : RxClass :=
  if (n - expected).toNat = 0 then .inOrder
  else if (n - expected).toNat ≤ 3 then .gap
  else .duplicate

/-- The base: the oldest outstanding sequence number, or `next_tx` with none outstanding (44_arq.md R260). -/
def ackBase (x : Endpoint) : Seq :=
  match x.rtxQueue with
  | [] => x.nextTx
  | E :: _ => E.seq

/-- `k`: how many frames the ack A covers (44_arq.md R260). -/
def ackCount (x : Endpoint) (A : Seq) : Nat := (A - ackBase x).toNat

/-- The ack A is Valid (44_arq.md R260). -/
def ackValid (x : Endpoint) (A : Seq) : Bool := decide (ackCount x A ≤ x.rtxQueue.length)

end Sys2Proof.Machine
end

