-- ==== Sys2Proof/Machine/Framer.lean ====
section
/-! DEFINITION. The transmit half of the framer: the frame builders and the TX port (41_framer_tx.md). -/

namespace Sys2Proof.Machine

/-! ## Frame builders (41_framer_tx.md R163)

A builder lays the frame out by `frameBytes`; its callers have checked the payload against MTU (log 9). -/

/-- The bytes of a new I-frame: ack is the current `expected_rx`, pf is 1 (30_encoding.md R112). -/
def iFrameBytes (s : State) (e : Byte) (n : Seq) (P : Bytes) : Bytes :=
  frameBytes e (ctrlI n (s.ep e).expectedRx true) P

/-- `send_I(e, s, P)`. -/
def sendI (e : Byte) (n : Seq) (P : Bytes) (s : State) : State := s.emitFrame (iFrameBytes s e n P)

/-- `send_RR(e)`. -/
def sendRR (e : Byte) (s : State) : State :=
  s.emitFrame (frameBytes e (ctrlS functionRR (s.ep e).expectedRx false) [])

/-- `send_REJ(e)`. -/
def sendREJ (e : Byte) (s : State) : State :=
  s.emitFrame (frameBytes e (ctrlS functionREJ (s.ep e).expectedRx false) [])

/-- `send_UI(P)`. -/
def sendUI (P : Bytes) (s : State) : State := s.emitFrame (frameBytes 0 (ctrlU utypeUI) P)

/-- `send_URESET(e)`. -/
def sendURESET (e : Byte) (s : State) : State := s.emitFrame (frameBytes e (ctrlU utypeURESET) [])

/-- `send_UACK(e)`. -/
def sendUACK (e : Byte) (s : State) : State := s.emitFrame (frameBytes e (ctrlU utypeUACK) [])

/-! ## TX_PULL -/

/-- TX_PULL (41_framer_tx.md R165). -/
def execTxPull (s : State) : Outcome :=
  match s.txQueue with
  | [] => .next (s.out .txIdle)
  | F :: rest =>
    match F[s.txPos]? with
    | none => .fault .txCursor
    | some b =>
      let s' := s.out (.txByte b)
      .next (if s.txPos + 1 = F.length then s'.setTx rest 0 else s'.setTx s.txQueue (s.txPos + 1))

end Sys2Proof.Machine
end

