-- ==== Sys2Proof/Machine/Arq.lean ====
section
/-! DEFINITION. The ARQ sequencer: sending, acknowledgement, retransmission and the timers (44_arq.md). -/

namespace Sys2Proof.Machine

/-! ## Sending -/

/-- `note_ack_sent(e)` (44_arq.md R262). -/
def noteAckSent (e : Byte) (s : State) : State :=
  cancelAck e (s.modEp e fun x => { x with ackPending := false })

/-- What sending the frame F with number `next_tx` writes into the record (44_arq.md R257). -/
def Endpoint.sent (F : Bytes) (now : Nat) (x : Endpoint) : Endpoint :=
  { x with
    rtxQueue := x.rtxQueue ++ [{ seq := x.nextTx, frame := F, sendTime := now }]
    outstanding := x.outstanding ||| seqBit x.nextTx
    nextTx := x.nextTx + 1 }

/-- Arms the rtx timer with the current `rto` if it is not running (44_arq.md R257). -/
def armRtxIfIdle (e : Byte) (s : State) : State :=
  if (s.ep e).rtxTimer.armed then s else armRtx e (s.ep e).rto s

/-- `send_new(e, P)` (44_arq.md R257); the sequence number it returns is the `next_tx` before it. -/
def sendNew (e : Byte) (P : Bytes) (s : State) : State :=
  let n := (s.ep e).nextTx
  let F := iFrameBytes s e n P
  armRtxIfIdle e (noteAckSent e ((sendI e n P s).modEp e (Endpoint.sent F s.now)))

/-- At most `n` rounds of `drain_pending(e)` (44_arq.md R258). -/
def drainLoop (e : Byte) : Nat → State → State
  | 0, s => s
  | n + 1, s =>
    match (s.ep e).pending with
    | [] => s
    | P :: rest =>
      if canSend s e then
        drainLoop e n
          ((sendNew e P (s.modEp e fun x => { x with pending := rest })).out (.pendingSent e (s.ep e).nextTx))
      else s

/-- `drain_pending(e)` (44_arq.md R258): each round takes one entry, so as many rounds as entries are enough. -/
def drainPending (e : Byte) (s : State) : State := drainLoop e (s.ep e).pending.length s

/-- WRITE (44_arq.md R255). -/
def execWrite (e : Byte) (P : Bytes) (s : State) : Outcome :=
  .next
    (if s.cfg.mtu < P.length then s.out (.writeResult e .rejTooLarge)
    else if (s.ep e).state ≠ .opened then s.out (.writeResult e .rejNotOpen)
    else if gateOk s e = false then s.out (.writeResult e .rejRetriable)
    else if canSend s e && (s.ep e).pending.isEmpty then
      (sendNew e P s).out (.writeResult e (.sent (s.ep e).nextTx))
    else if s.cfg.pendingCap ≤ (s.ep e).pending.length then s.out (.writeResult e .rejBusy)
    else (s.modEp e fun x => { x with pending := x.pending ++ [P] }).out (.writeResult e .queued))

/-! ## Acknowledgement -/

/-- The record after its `k` oldest frames are acknowledged (44_arq.md R260). -/
def Endpoint.acked (rtoInit k : Nat) (x : Endpoint) : Endpoint :=
  { x with
    rtxQueue := x.rtxQueue.drop k
    outstanding := (x.rtxQueue.take k).foldl (fun m E => m &&& ~~~ (seqBit E.seq)) x.outstanding
    retryCount := 0
    rto := rtoInit }

/-- The rtx timer after an ack: cancelled with nothing outstanding, else restarted (44_arq.md R260). -/
def restartRtx (e : Byte) (s : State) : State :=
  if (s.ep e).rtxQueue.isEmpty then cancelRtx e s else armRtx e (s.ep e).rto s

/-- `process_ack(e, A)` (44_arq.md R260); it is Valid when `ackValid` held before it. -/
def processAck (e : Byte) (A : Seq) (s : State) : State :=
  if ackValid (s.ep e) A = false then s.out (.ackInvalid e A)
  else if ackCount (s.ep e) A = 0 then s
  else
    drainPending e
      ((restartRtx e (s.modEp e (Endpoint.acked s.cfg.rtoInit (ackCount (s.ep e) A)))).out
        (.acked e (ackCount (s.ep e) A)))

/-! ## Retransmission -/

/-- `retransmit(e, E)`: the stored bytes unchanged (44_arq.md R265). -/
def retransmit (e : Byte) (s : State) (E : RtxEntry) : State :=
  (s.emitFrame E.frame).out (.retransmit e E.seq)

/-- `rtx_from(e, A)` after a valid `process_ack(e, A)`: the queue's head is A, and
frames its drain has just sent are in the queue too (44_arq.md R261, R264; log 15). -/
def rtxFrom (e : Byte) (s : State) : State :=
  if (s.ep e).rtxQueue.isEmpty then s
  else armRtx e (s.ep e).rto ((s.ep e).rtxQueue.foldl (retransmit e) s)

/-- The record after an expiry is counted (44_arq.md R270). -/
def Endpoint.timedOut (x : Endpoint) : Endpoint := { x with retryCount := x.retryCount + 1 }

/-- The record with its RTO doubled, up to RTO_MAX (44_arq.md R272). -/
def Endpoint.backedOff (rtoMax : Nat) (x : Endpoint) : Endpoint := { x with rto := min (2 * x.rto) rtoMax }

/-- The second half of an expiry that does not fail the endpoint: back off, resend the oldest frame, restart the
timer (44_arq.md R270, R272; log 16). -/
def resendOldest (e : Byte) (s : State) : State :=
  let s' := s.modEp e (Endpoint.backedOff s.cfg.rtoMax)
  armRtx e (s'.ep e).rto (((s'.ep e).rtxQueue.take 1).foldl (retransmit e) s')

/-- `rtx_expire(e)` (44_arq.md R270). -/
def rtxExpire (e : Byte) (s : State) : State :=
  let n := (s.ep e).retryCount + 1
  let s' := (s.modEp e Endpoint.timedOut).out (.timeout e n)
  if s.cfg.maxRetries < n then failEndpoint e .faultNoAck s' else resendOldest e s'

/-- `ack_expire(e)` (44_arq.md R263). -/
def ackExpire (e : Byte) (s : State) : State :=
  if (s.ep e).state = .opened ∧ (s.ep e).ackPending = true then noteAckSent e (sendRR e s) else s

/-! ## Time -/

/-- The two timers of an endpoint (10_state.md R50, R53). -/
inductive TimerKind where
  | rtx
  | ack
  deriving DecidableEq, Repr

/-- A timer of the block. -/
structure TimerRef where
  ep : Byte
  kind : TimerKind
  deriving DecidableEq, Repr

/-- The record of a timer. -/
def timerOf (s : State) (t : TimerRef) : Timer :=
  match t.kind with
  | .rtx => (s.ep t.ep).rtxTimer
  | .ack => (s.ep t.ep).ackTimer

/-- The two timers of the record of an address. -/
def timersOfEp (p : Byte × Endpoint) : List (TimerRef × Timer) :=
  [(⟨p.1, .rtx⟩, p.2.rtxTimer), (⟨p.1, .ack⟩, p.2.ackTimer)]

/-- All 512 timers with their records, by ascending address. -/
def timerEntries (s : State) : List (TimerRef × Timer) :=
  ((endpointsFrom 0).zip s.eps.toList).flatMap timersOfEp

/-- The timer is armed and its deadline has come (44_arq.md R280). -/
def isDue (now : Nat) (t : Timer) : Bool := t.armed && decide (t.deadline ≤ now)

/-- The order of firing: by (deadline, arm_seq) (44_arq.md R281). -/
def firesBefore (a b : Timer) : Bool :=
  decide (a.deadline < b.deadline) || (a.deadline == b.deadline && decide (a.armSeq < b.armSeq))

/-- The earlier of the best due timer so far and `p`, if `p` is due (44_arq.md R281; log 10). -/
def betterDue (now : Nat) (best : Option (TimerRef × Timer)) (p : TimerRef × Timer) : Option (TimerRef × Timer) :=
  if isDue now p.2 then
    match best with
    | none => some p
    | some b => if firesBefore p.2 b.2 then some p else some b
  else best

/-- The due timer with the least (deadline, arm_seq), if any timer is due (44_arq.md R280). -/
def nextDue (s : State) : Option TimerRef := ((timerEntries s).foldl (betterDue s.now) none).map Prod.fst

/-- Cancels a due timer and runs its handler (44_arq.md R280). -/
def fireTimer (t : TimerRef) (s : State) : State :=
  match t.kind with
  | .rtx => rtxExpire t.ep (cancelRtx t.ep s)
  | .ack => ackExpire t.ep (cancelAck t.ep s)

/-- At most `n` rounds of TICK's loop (44_arq.md R280). -/
def fireDue : Nat → State → State
  | 0, s => s
  | n + 1, s =>
    match nextDue s with
    | none => s
    | some t => fireDue n (fireTimer t s)

/-- Rounds that are enough for TICK's loop from every state: a timer of an endpoint fires at most MAX_RETRIES + 2
times as its rtx timer and once as its ack timer (log 10). -/
def tickRounds (c : Config) : Nat := 256 * (c.maxRetries + 3)

/-- TICK (44_arq.md R280). -/
def execTick (s : State) : Outcome := .next (fireDue (tickRounds s.cfg) (s.setNow (s.now + 1)))

end Sys2Proof.Machine
end

