-- ==== Sys2Proof/Machine/Receive.lean ====
section
/-! DEFINITION. The demultiplexer and the receive rules: the meanings of the seven frame kinds
(43_frame_dispatch.md). -/

namespace Sys2Proof.Machine

/-! ## The checks of dispatch -/

/-- The kinds that carry a payload (30_encoding.md R111). -/
def carriesPayload (k : FrameKind) : Bool := k == .i || k == .ui

/-- The violation a frame raises, by the first check it fails: UnknownType, Malformed, ReservedAddress, UIAddress
(43_frame_dispatch.md R210 to R212). -/
def frameViolation (k : FrameKind) (a : Byte) (P : Bytes) : Option ViolReason :=
  if k = .unknown then some .unknownType
  else if carriesPayload k = false ∧ P ≠ [] then some .malformed
  else if a = 15 then some .reservedAddress
  else if k = .ui ∧ a ≠ 0 then some .uiAddress
  else none

/-! ## Receive rules -/

/-- `rx_in_order(e, P)` (43_frame_dispatch.md R216). -/
def rxInOrder (e : Byte) (P : Bytes) (s : State) : State :=
  if s.cfg.rxQueueCap ≤ (s.ep e).rxQueue.length then s.out (.rxDrop e .rxFull)
  else
    let s1 := s.modEp e fun x => { x with rxQueue := x.rxQueue ++ [P] }
    let s2 := s1.out (.delivered e (some (s.ep e).expectedRx) P.length)
    let s3 := s2.modEp e fun x => { x with expectedRx := x.expectedRx + 1, ackPending := true }
    if (s3.ep e).ackTimer.armed then s3 else armAck e s3.cfg.ackDelay s3

/-- The receive classification of an admissible I-frame, its ack not yet processed (43_frame_dispatch.md R214 to
R218). -/
def rxClassified (e : Byte) (n : Seq) (P : Bytes) (corrupt : Bool) (s : State) : State :=
  if corrupt then noteAckSent e (sendREJ e (s.out (.rxDrop e .corrupt)))
  else
    match classify n (s.ep e).expectedRx with
    | .inOrder => rxInOrder e P s
    | .gap => noteAckSent e (sendREJ e (s.out (.rxDrop e .gap)))
    | .duplicate => noteAckSent e (sendRR e (s.out (.rxDrop e .duplicate)))

/-- `rx_I` (43_frame_dispatch.md R215): classify first, then process the ack. -/
def rxI (e : Byte) (n A : Seq) (P : Bytes) (corrupt : Bool) (s : State) : State :=
  if openReady s e = false then s.out (.rxDrop e .notOpen)
  else processAck e A (rxClassified e n P corrupt s)

/-- `rx_RR` (43_frame_dispatch.md R219). -/
def rxRR (e : Byte) (A : Seq) (s : State) : State :=
  if openReady s e = false then s.out (.rxDrop e .notOpen) else processAck e A s

/-- `rx_REJ` (43_frame_dispatch.md R220): an Invalid ack retransmits nothing. -/
def rxREJ (e : Byte) (A : Seq) (s : State) : State :=
  if openReady s e = false then s.out (.rxDrop e .notOpen)
  else if ackValid (s.ep e) A = false then processAck e A s
  else rtxFrom e (processAck e A s)

/-- `rx_UI` (43_frame_dispatch.md R221). -/
def rxUI (P : Bytes) (corrupt : Bool) (s : State) : State :=
  if corrupt then s.out (.rxDrop 0 .corrupt)
  else if (s.ep 0).state ≠ .opened then s.out (.rxDrop 0 .notOpen)
  else if s.cfg.rxQueueCap ≤ (s.ep 0).rxQueue.length then s.out (.rxDrop 0 .rxFull)
  else (s.modEp 0 fun x => { x with rxQueue := x.rxQueue ++ [P] }).out (.delivered 0 none P.length)

/-- `peer_reset_endpoint(e)` (43_frame_dispatch.md R223). The RX queue is kept. -/
def peerResetEndpoint (e : Byte) (s : State) : State :=
  match (s.ep e).state with
  | .opened => ((arqFlush e s).modEp e fun x => { x with awaitingUack := false }).out (.epReset e)
  | .closing => ((arqFlush e s).modEp e fun x => { x with state := .closed }).out (.epState e .closed)
  | .closed => s
  | .connectionLost => s
  | .error _ => s

/-- `rx_URESET(a)` (43_frame_dispatch.md R222, R224). -/
def rxURESET (a : Byte) (s : State) : State :=
  peerResetEndpoint a (sendUACK a (if a = 0 then linkResetEndpoints 1 .peerReset s else s))

/-- `rx_UACK(e)` (43_frame_dispatch.md R225). -/
def rxUACK (e : Byte) (s : State) : State :=
  if (s.ep e).state = .opened ∧ (s.ep e).awaitingUack = true then
    drainPending e ((s.modEp e fun x => { x with awaitingUack := false }).out (.opened e))
  else if (s.ep e).state = .closing then
    (s.modEp e fun x => { x with state := .closed }).out (.epState e .closed)
  else s.out (.rxDrop e .ignored)

/-! ## The frame kinds: the checks of dispatch, then the receive rule -/

/-- A received I-frame (43_frame_dispatch.md R210, R215). -/
def receiveI (f : RxFrame) (n A : Seq) (s : State) : State :=
  match frameViolation .i f.addr f.payload with
  | some r => raiseViolation r s
  | none => rxI f.addr n A f.payload f.corrupt s

/-- A received RR (43_frame_dispatch.md R210, R219). -/
def receiveRR (f : RxFrame) (A : Seq) (s : State) : State :=
  match frameViolation .rr f.addr f.payload with
  | some r => raiseViolation r s
  | none => rxRR f.addr A s

/-- A received REJ (43_frame_dispatch.md R210, R220). -/
def receiveREJ (f : RxFrame) (A : Seq) (s : State) : State :=
  match frameViolation .rej f.addr f.payload with
  | some r => raiseViolation r s
  | none => rxREJ f.addr A s

/-- A received UI (43_frame_dispatch.md R210, R221). -/
def receiveUI (f : RxFrame) (s : State) : State :=
  match frameViolation .ui f.addr f.payload with
  | some r => raiseViolation r s
  | none => rxUI f.payload f.corrupt s

/-- A received U-PF (43_frame_dispatch.md R210, R226). -/
def receiveUPF (f : RxFrame) (s : State) : State :=
  match frameViolation .upf f.addr f.payload with
  | some r => raiseViolation r s
  | none => s.out (.rxDrop f.addr .ignored)

/-- A received U-Ack (43_frame_dispatch.md R210, R225). -/
def receiveUACK (f : RxFrame) (s : State) : State :=
  match frameViolation .uack f.addr f.payload with
  | some r => raiseViolation r s
  | none => rxUACK f.addr s

/-- A received U-Reset (43_frame_dispatch.md R210, R222). -/
def receiveURESET (f : RxFrame) (s : State) : State :=
  match frameViolation .ureset f.addr f.payload with
  | some r => raiseViolation r s
  | none => rxURESET f.addr s

/-- `dispatch(a, c, P, corrupt)` (43_frame_dispatch.md R210). -/
def dispatch (a c : Byte) (P : Bytes) (corrupt : Bool) (s : State) : State :=
  match kind c with
  | .i => receiveI ⟨a, P, corrupt⟩ (seqOf c) (ackOf c) s
  | .rr => receiveRR ⟨a, P, corrupt⟩ (ackOf c) s
  | .rej => receiveREJ ⟨a, P, corrupt⟩ (ackOf c) s
  | .ui => receiveUI ⟨a, P, corrupt⟩ s
  | .upf => receiveUPF ⟨a, P, corrupt⟩ s
  | .uack => receiveUACK ⟨a, P, corrupt⟩ s
  | .ureset => receiveURESET ⟨a, P, corrupt⟩ s
  | .unknown => raiseViolation .unknownType s

/-! ## The meanings of the frame instructions (the pf bit selects nothing: 30_encoding.md R112) -/

/-- I (43_frame_dispatch.md R215). -/
def execI (f : RxFrame) (seq ack : Seq) (s : State) : Outcome := .next (receiveI f seq ack s)

/-- RR (43_frame_dispatch.md R219). -/
def execRr (f : RxFrame) (ack : Seq) (s : State) : Outcome := .next (receiveRR f ack s)

/-- REJ (43_frame_dispatch.md R220). -/
def execRej (f : RxFrame) (ack : Seq) (s : State) : Outcome := .next (receiveREJ f ack s)

/-- UI (43_frame_dispatch.md R221). -/
def execUi (f : RxFrame) (s : State) : Outcome := .next (receiveUI f s)

/-- UPF (43_frame_dispatch.md R226). -/
def execUpf (f : RxFrame) (s : State) : Outcome := .next (receiveUPF f s)

/-- UACK (43_frame_dispatch.md R225). -/
def execUack (f : RxFrame) (s : State) : Outcome := .next (receiveUACK f s)

/-- URESET (43_frame_dispatch.md R222). -/
def execUreset (f : RxFrame) (s : State) : Outcome := .next (receiveURESET f s)

end Sys2Proof.Machine
end

