-- ==== Sys2Proof/Machine/Deframer.lean ====
section
/-! DEFINITION. The receive half of the framer: RX_BYTE and the three phases of the deframer (42_deframer_rx.md). -/

namespace Sys2Proof.Machine

/-- `rx_restart()` (42_deframer_rx.md R187). -/
def rxRestart (s : State) : State := s.setRx .hunt [] 0

/-- `rx_hunt(b)` (42_deframer_rx.md R182). -/
def rxHunt (b : Byte) (s : State) : State :=
  if b = flagByte then s.setRx .header [b] s.rxNeed else s.out (.garbage 1)

/-- `rx_check_header()` (42_deframer_rx.md R184): the HCS, then the length cap. -/
def rxCheckHeader (s : State) : Outcome :=
  match headerAt s.rxBuf with
  | none => .fault .rxCursor
  | some h =>
    if hcsOk h = false then .next (rxRestart (s.out (.garbage 7)))
    else if s.cfg.mtu < h.length then .next (raiseViolation .oversize (rxRestart (s.out (.garbage 7))))
    else if h.length = 0 then .next (dispatch h.addr h.control [] false (rxRestart s))
    else .next (s.setRx .body s.rxBuf (h.length + 2))

/-- `rx_header(b)` (42_deframer_rx.md R183). -/
def rxHeader (b : Byte) (s : State) : Outcome :=
  let s' := s.setRx .header (s.rxBuf ++ [b]) s.rxNeed
  if s'.rxBuf.length = 7 then rxCheckHeader s' else .next s'

/-- A frame whose bytes have all arrived, with its FCS result (42_deframer_rx.md R186). -/
def rxFrameDone (h : Header) (P : Bytes) (corrupt : Bool) (s : State) : State :=
  let s' := rxRestart s
  dispatch h.addr h.control P corrupt (if corrupt then s'.out (.frameCorrupt h.addr) else s')

/-- `rx_check_payload()` (42_deframer_rx.md R186). -/
def rxCheckPayload (s : State) : Outcome :=
  match headerAt s.rxBuf with
  | none => .fault .rxCursor
  | some h =>
    match (s.rxBuf.drop 7).drop h.length with
    | f0 :: f1 :: _ =>
      let P := (s.rxBuf.drop 7).take h.length
      .next (rxFrameDone h P (!fcsOk P f0 f1) s)
    | _ => .fault .rxCursor

/-- `rx_body(b)` (42_deframer_rx.md R185). -/
def rxBody (b : Byte) (s : State) : Outcome :=
  match s.rxNeed with
  | 0 => .fault .rxCursor
  | n + 1 =>
    let s' := s.setRx .body (s.rxBuf ++ [b]) n
    if n = 0 then rxCheckPayload s' else .next s'

/-- RX_BYTE (42_deframer_rx.md R181). -/
def execRxByte (b : Byte) (s : State) : Outcome :=
  match s.rxPhase with
  | .hunt => .next (rxHunt b s)
  | .header => rxHeader b s
  | .body => rxBody b s

end Sys2Proof.Machine
end

