-- ==== Sys2Proof/Machine/Endpoints.lean ====
section
/-! DEFINITION. The host commands other than WRITE, and the endpoint lifecycle they drive (45_endpoint_cmds.md). -/

namespace Sys2Proof.Machine

/-! ## Open and close -/

/-- The link reset that OPEN or CLOSE of endpoint 0 begins with (45_endpoint_cmds.md R304). -/
def systemReset (e : Byte) (s : State) : State :=
  if e = 0 then linkResetEndpoints 1 .systemEndpoint s else s

/-- The record an accepted OPEN leaves (45_endpoint_cmds.md R300): endpoints 0 and 14 are never encrypted. -/
def Endpoint.openedWith (rtoInit : Nat) (e : Byte) (w : BitVec 3) (enc : Bool) (x : Endpoint) : Endpoint :=
  { x.flushed rtoInit with
    rxQueue := []
    window := w
    encrypted := enc && !(e == 0 || e == 14)
    state := .opened
    awaitingUack := true }

/-- The states OPEN is accepted from; otherwise its refusal (45_endpoint_cmds.md R300). -/
def openRefusal (e : Byte) (w : BitVec 3) (st : EpState) : Option RejectReason :=
  if e = 15 then some .badEndpoint
  else if w = 0 then some .badWindow
  else
    match st with
    | .opened => some .alreadyOpen
    | .closing => some .alreadyOpen
    | .error .securityIncident => some .sticky
    | .closed => none
    | .connectionLost => none
    | .error .remoteError => none
    | .error .faultNoAck => none
    | .error .destUnreach => none

/-- OPEN (45_endpoint_cmds.md R300). -/
def execOpenEp (e : Byte) (w : BitVec 3) (enc : Bool) (s : State) : Outcome :=
  .next
    (match openRefusal e w (s.ep e).state with
    | some r => s.out (.cmdReject (.cmd .opOpen) e r)
    | none =>
      let s1 := (systemReset e s).modEp e (Endpoint.openedWith s.cfg.rtoInit e w enc)
      ((sendURESET e s1).out (.epState e .opened)).out (.cmdOk .opOpen e))

/-- CLOSE of an Open endpoint (45_endpoint_cmds.md R302). -/
def closeOpened (e : Byte) (s : State) : State :=
  let s1 := (systemReset e s).modEp e (Endpoint.dropped s.cfg.rtoInit .closing)
  ((sendURESET e s1).out (.epState e .closing)).out (.cmdOk .opClose e)

/-- CLOSE of an endpoint in ConnectionLost or a non-sticky Error state (45_endpoint_cmds.md R303). -/
def closeFailed (e : Byte) (s : State) : State :=
  ((s.modEp e fun x => { x with state := .closed }).out (.epState e .closed)).out (.cmdOk .opClose e)

/-- CLOSE (45_endpoint_cmds.md R302, R303, R305). -/
def execCloseEp (e : Byte) (s : State) : Outcome :=
  .next
    (match (s.ep e).state with
    | .closed => s.out (.cmdOk .opClose e)
    | .closing => s.out (.cmdOk .opClose e)
    | .error .securityIncident => s.out (.cmdOk .opClose e)
    | .opened => closeOpened e s
    | .connectionLost => closeFailed e s
    | .error .remoteError => closeFailed e s
    | .error .faultNoAck => closeFailed e s
    | .error .destUnreach => closeFailed e s)

/-! ## Failure and link reset -/

/-- FAIL (45_endpoint_cmds.md R306). -/
def execFail (e : Byte) (cause : FailCause) (s : State) : Outcome :=
  .next
    (if e = 15 then s.out (.cmdReject (.cmd .opFail) e .badEndpoint)
    else if (s.ep e).state = .error .securityIncident ∧ cause ≠ .securityIncident then s.out (.cmdOk .opFail e)
    else (failEndpoint e (errorOfCause cause) s).out (.cmdOk .opFail e))

/-- LINK_RESET (45_endpoint_cmds.md R309). -/
def execLinkReset (s : State) : Outcome :=
  .next ((linkResetEndpoints 0 .host s).out (.cmdOk .opLinkReset 0))

/-! ## Data and status access -/

/-- RX_POP (45_endpoint_cmds.md R312). -/
def execRxPop (e : Byte) (s : State) : Outcome :=
  .next
    (match (s.ep e).rxQueue with
    | [] => s.out (.rxEmpty e)
    | P :: rest => (s.modEp e fun x => { x with rxQueue := rest }).out (.rxData e P))

/-- The twelve fields STATUS reports (45_endpoint_cmds.md R313). -/
def statusReport (e : Byte) (x : Endpoint) : StatusReport where
  ep := e
  state := x.state
  awaitingUack := x.awaitingUack
  window := x.window
  encrypted := x.encrypted
  nextTx := x.nextTx
  expectedRx := x.expectedRx
  outstanding := x.outstanding
  pendingLen := x.pending.length
  rxQueueLen := x.rxQueue.length
  retryCount := x.retryCount
  rto := x.rto

/-- STATUS (45_endpoint_cmds.md R313). -/
def execStatus (e : Byte) (s : State) : Outcome := .next (s.out (.status (statusReport e (s.ep e))))

/-- `drain_pending(e)` for e = 0..255, ascending (45_endpoint_cmds.md R314). -/
def drainAll (s : State) : State := (endpointsFrom 0).foldl (fun s e => drainPending e s) s

/-- SEC_STATE (45_endpoint_cmds.md R314). -/
def execSecState (v : SessionState) (s : State) : Outcome :=
  let s' := s.setSession v
  .next ((if v = .initialized then drainAll s' else s').out (.cmdOk .opSecState 0))

/-- UI_SEND (45_endpoint_cmds.md R315). -/
def execUiSend (e : Byte) (P : Bytes) (s : State) : Outcome :=
  .next
    (if e ≠ 0 then s.out (.cmdReject (.cmd .opUiSend) e .badEndpoint)
    else if s.cfg.mtu < P.length then s.out (.cmdReject (.cmd .opUiSend) 0 .tooLarge)
    else if (s.ep 0).state ≠ .opened then s.out (.cmdReject (.cmd .opUiSend) 0 .notOpen)
    else (sendUI P s).out (.cmdOk .opUiSend 0))

end Sys2Proof.Machine
end

