-- ==== Sys2Proof/Machine/Dispatch.lean ====
section
/-! DEFINITION. The meaning of every instruction, by constructor. -/

namespace Sys2Proof.Machine

def exec (i : Instr) (s : State) : Host.Outcome State Fault Refusal :=
  match i with
  | .iFrame f seq _ ack => Sys2Proof.Machine.execI f seq ack s
  | .rr f _ ack => Sys2Proof.Machine.execRr f ack s
  | .rej f _ ack => Sys2Proof.Machine.execRej f ack s
  | .ui f => Sys2Proof.Machine.execUi f s
  | .upf f => Sys2Proof.Machine.execUpf f s
  | .uack f => Sys2Proof.Machine.execUack f s
  | .ureset f => Sys2Proof.Machine.execUreset f s
  | .openEp e window enc => Sys2Proof.Machine.execOpenEp e window enc s
  | .closeEp e => Sys2Proof.Machine.execCloseEp e s
  | .write e payload => Sys2Proof.Machine.execWrite e payload s
  | .uiSend e payload => Sys2Proof.Machine.execUiSend e payload s
  | .rxPop e => Sys2Proof.Machine.execRxPop e s
  | .status e => Sys2Proof.Machine.execStatus e s
  | .fail e cause => Sys2Proof.Machine.execFail e cause s
  | .linkReset => Sys2Proof.Machine.execLinkReset s
  | .secState session => Sys2Proof.Machine.execSecState session s
  | .rxByte b => Sys2Proof.Machine.execRxByte b s
  | .txPull => Sys2Proof.Machine.execTxPull s
  | .tick => Sys2Proof.Machine.execTick s

end Sys2Proof.Machine
end

