-- ==== Sys2Proof/Machine/Fetch.lean ====
section
/-! DEFINITION. How the next input event becomes an instruction, and where the host's two questions place one
(30_encoding.md R120, R123; log 2, log 11). -/

namespace Sys2Proof.Machine

/-- The refusal of a reserved command word: one CmdReject and no other change (30_encoding.md R123). -/
def rejectCommand (b : BadCommand) (s : State) : State := s.out (.cmdReject b.op b.ep .badCommand)

/-- One input event: its word is decoded, and the command runs or is refused (30_encoding.md R120 to R123). -/
def runInput (x : InputEvent) (s : State) : Outcome :=
  match decodeCommand x.word x.payload with
  | .ok i => exec i s
  | .error b => .next (rejectCommand b s)

/-- The RX_BYTE event of a byte (30_encoding.md R121). -/
def rxByteInput (b : Byte) : InputEvent := { word := commandWord 0xB 0 b, payload := [] }

/-- `s` with all but the last byte of a 7-byte frame in the deframer and the RX_BYTE of the last byte next. -/
def stageFrame (bs : Bytes) (s : State) : State :=
  (s.setRx .header (bs.take 6) s.rxNeed).setInput (rxByteInput (bs.getLastD 0) :: s.input)

/-- `s` with a command word and an empty payload as the next input event. -/
def stageCommand (w : Word) (s : State) : State := s.setInput ({ word := w, payload := [] } :: s.input)

end Sys2Proof.Machine
end

