-- ==== Sys2Proof/Machine/Step.lean ====
section
/-! DEFINITION. One step of the block: one input event, to completion (60_exceptions.md R351). -/

namespace Sys2Proof.Machine

/-- One step: the next input event is taken from the stream and processed; with none to come, the idle block stays
as it is (00_scope.md R7; 60_exceptions.md R351, R374; log 2). -/
def step (s : State) : Host.Outcome State Fault Refusal :=
  match s.input with
  | [] => .next s
  | x :: rest => runInput x (s.setInput rest)

/-- `s` with the instruction of an opcode-table row's bits where the next step runs it: a command word as the next
input event; a control byte in a frame of which only the last byte is still to come (log 11). -/
def State.withFetchWord (s : State) (nbits w : Nat) : State :=
  if nbits = 8 then stageFrame (tableFrame w) s else stageCommand (BitVec.ofNat 16 w) s

end Sys2Proof.Machine
end

