-- ==== Sys2Proof/Safety.lean ====
section
/-! DEFINITION. What a legal state of the block is (10_state.md R55 and the ranges its rules give), runs of
instructions, and the terms the statements use. -/

namespace Sys2Proof.Machine

/-! ## Runs -/

/-- Runs instructions one after another, stopping at the first fault or refusal. -/
def execAll : List Instr → State → Outcome
  | [], s => .next s
  | i :: rest, s =>
    match exec i s with
    | .next s' => execAll rest s'
    | .fault r => .fault r
    | .refused r => .refused r

/-- The step answers a next state: it neither faults nor refuses. -/
def stepGoesOn (s : State) : Prop := ∃ t, step s = .next t

/-! ## Legal parts of the state -/

/-- A frame the block may queue for sending: the encoding of an admitted control byte and a payload of at most MTU
bytes (30_encoding.md R110; 41_framer_tx.md R160, R161). -/
def SendableFrame (mtu : Nat) (F : Bytes) : Prop :=
  ∃ a c P, kind c ≠ .unknown ∧ P.length ≤ mtu ∧ F = frameBytes a c P

/-- An entry of endpoint `e`'s retransmit queue holds an I-frame of `e` with the entry's number, as it was encoded
(10_state.md R47; 30_encoding.md R112). -/
def StoredIFrame (mtu : Nat) (e : Byte) (E : RtxEntry) : Prop :=
  ∃ ack P, P.length ≤ mtu ∧ E.frame = frameBytes e (ctrlI E.seq ack true) P

/-- The legal records of endpoint `e`: R55's (I1) to (I5), and the ranges of R42, R48, R49, R52 and R54. -/
structure EpInv (cfg : Config) (e : Byte) (x : Endpoint) : Prop where
  /-- R42 -/
  window_pos : 1 ≤ x.window.toNat
  /-- (I1) -/
  outstanding_count : popcount x.outstanding = x.rtxQueue.length
  /-- (I1) -/
  within_window : x.rtxQueue.length ≤ x.window.toNat
  /-- (I2): the numbers run consecutively from the base -/
  consecutive : ∀ i E, x.rtxQueue[i]? = some E → E.seq = ackBase x + BitVec.ofNat 3 i
  /-- (I2) -/
  next_after_last : x.nextTx = ackBase x + BitVec.ofNat 3 x.rtxQueue.length
  /-- (I2): the mask has exactly the bits of the queue -/
  mask_exact : ∀ n : Seq, x.outstanding.getLsbD n.toNat = true ↔ ∃ E ∈ x.rtxQueue, E.seq = n
  /-- R47 -/
  stored : ∀ E ∈ x.rtxQueue, StoredIFrame cfg.mtu e E
  /-- (I3) -/
  rtx_armed : x.rtxTimer.armed = true ↔ x.rtxQueue ≠ []
  /-- (I4) -/
  ack_armed : x.ackTimer.armed = true → x.ackPending = true
  /-- (I5) -/
  idle_unless_open : x.state ≠ .opened →
    x.rtxQueue = [] ∧ x.pending = [] ∧ x.outstanding = 0 ∧ x.rtxTimer.armed = false ∧ x.ackTimer.armed = false
      ∧ x.ackPending = false
  /-- R41: every transition out of Open ends the wait -/
  awaiting_open : x.awaitingUack = true → x.state = .opened
  /-- 45_endpoint_cmds.md R308, R312: outside Open the RX queue is empty -/
  rxQueue_open : x.state ≠ .opened → x.rxQueue = []
  /-- 45_endpoint_cmds.md R311: outside Open the sequence numbers are 0 -/
  seq_open : x.state ≠ .opened → x.nextTx = 0 ∧ x.expectedRx = 0
  /-- R48 -/
  rto_range : cfg.rtoInit ≤ x.rto ∧ x.rto ≤ cfg.rtoMax
  /-- R49 -/
  retry_range : x.retryCount ≤ cfg.maxRetries + 1
  /-- R52 -/
  pending_range : x.pending.length ≤ cfg.pendingCap ∧ ∀ P ∈ x.pending, P.length ≤ cfg.mtu
  /-- R54 -/
  rxQueue_range : x.rxQueue.length ≤ cfg.rxQueueCap ∧ ∀ P ∈ x.rxQueue, P.length ≤ cfg.mtu

/-- The legal deframer states of 10_state.md R33 and 42_deframer_rx.md R180: nothing held in HUNT; one to six bytes
from a flag in HEADER; in BODY a checked header of a payload of 1..MTU bytes, and `rx_need` the bytes still to come. -/
def RxInv (s : State) : Prop :=
  match s.rxPhase with
  | .hunt => s.rxBuf = [] ∧ s.rxNeed = 0
  | .header => s.rxBuf.head? = some flagByte ∧ s.rxBuf.length ≤ 6 ∧ s.rxNeed = 0
  | .body =>
    ∃ h, headerAt s.rxBuf = some h ∧ h.flag = flagByte ∧ hcsOk h = true ∧ 0 < h.length ∧ h.length ≤ s.cfg.mtu
      ∧ 0 < s.rxNeed ∧ s.rxBuf.length + s.rxNeed = 7 + h.length + 2

/-- The legal transmit states of 10_state.md R35: whole sendable frames, and `tx_pos` an index of the head frame. -/
structure TxInv (s : State) : Prop where
  sendable : ∀ F ∈ s.txQueue, SendableFrame s.cfg.mtu F
  idle : s.txQueue = [] → s.txPos = 0
  cursor : ∀ F, s.txQueue.head? = some F → s.txPos < F.length

/-- The legal violation histories of 10_state.md R36: at most VIOL_COUNT past stamps, oldest first. -/
structure ViolInv (s : State) : Prop where
  short : s.violHist.length ≤ s.cfg.violCount
  past : ∀ t ∈ s.violHist, t ≤ s.now
  ordered : s.violHist.Pairwise (· ≤ ·)

/-- The legal states of the block: the invariants of 10_state.md R55 with the ranges of its state rules. -/
structure State.Inv (s : State) : Prop where
  cfg : s.cfg.Valid
  ep : ∀ e, EpInv s.cfg e (s.ep e)
  /-- (I6) -/
  ep15 : (s.ep 15).state = .closed
  rx : RxInv s
  tx : TxInv s
  viol : ViolInv s

/-! ## Terms of the statements -/

/-- The endpoint an instruction acts on, if it acts on one alone: the address of a frame, the `ep` operand of a
command; none for the link-wide and the global instructions (60_exceptions.md R361). -/
def instrTarget : Instr → Option Byte
  | .iFrame f _ _ _ => some f.addr
  | .rr f _ _ => some f.addr
  | .rej f _ _ => some f.addr
  | .ui f => some f.addr
  | .upf f => some f.addr
  | .uack f => some f.addr
  | .ureset f => if f.addr = 0 then none else some f.addr
  | .openEp e _ _ => if e = 0 then none else some e
  | .closeEp e => if e = 0 then none else some e
  | .write e _ => some e
  | .uiSend e _ => some e
  | .rxPop e => some e
  | .status e => some e
  | .fail e _ => some e
  | .linkReset => none
  | .secState _ => none
  | .rxByte _ => none
  | .txPull => none
  | .tick => none

/-- The kind and the frame of a frame instruction. -/
def instrFrame : Instr → Option (FrameKind × RxFrame)
  | .iFrame f _ _ _ => some (.i, f)
  | .rr f _ _ => some (.rr, f)
  | .rej f _ _ => some (.rej, f)
  | .ui f => some (.ui, f)
  | .upf f => some (.upf, f)
  | .uack f => some (.uack, f)
  | .ureset f => some (.ureset, f)
  | .openEp _ _ _ => none
  | .closeEp _ => none
  | .write _ _ => none
  | .uiSend _ _ => none
  | .rxPop _ => none
  | .status _ => none
  | .fail _ _ => none
  | .linkReset => none
  | .secState _ => none
  | .rxByte _ => none
  | .txPull => none
  | .tick => none

/-- The frame instruction passes the checks of dispatch (43_frame_dispatch.md R210). -/
def passesDispatch (i : Instr) : Prop :=
  ∀ k f, instrFrame i = some (k, f) → frameViolation k f.addr f.payload = none

/-- Why the spec refuses a command word, read from the table of 30_encoding.md R121 and the must-be-zero bits of
R122: the op its CmdReject names, or `none` for a word that spells a command (R123). -/
def refusedWord (w : Word) : Option CmdOp :=
  let arg := w.toNat / 0x100 % 0x10
  let low := w.toNat % 0x100
  let refuseUnless (ok : Bool) (m : Mnemonic) : Option CmdOp := if ok then none else some (.cmd m)
  match w.toNat / 0x1000 with
  | 0x1 => none
  | 0x2 => refuseUnless (arg == 0) .opClose
  | 0x3 => refuseUnless (arg == 0) .opWrite
  | 0x4 => refuseUnless (arg == 0) .opUiSend
  | 0x5 => refuseUnless (arg == 0) .opRxPop
  | 0x6 => refuseUnless (arg == 0) .opStatus
  | 0x7 => refuseUnless (arg / 4 == 0 && arg % 4 != 3) .opFail
  | 0x8 => refuseUnless (arg == 0 && low == 0) .opLinkReset
  | 0x9 => refuseUnless (arg / 4 == 0 && low == 0) .opSecState
  | 0xB => refuseUnless (arg == 0) .opRxByte
  | 0xC => refuseUnless (arg == 0 && low == 0) .opTxPull
  | 0xD => refuseUnless (arg == 0 && low == 0) .opTick
  | op => some (.raw (BitVec.ofNat 4 op))

/-- The stamps of armed timers tell them apart and are all spent (10_state.md R32; 00_scope.md R17). -/
structure StampsDistinct (s : State) : Prop where
  spent : ∀ t, (timerOf s t).armed = true → (timerOf s t).armSeq < s.armCounter
  distinct : ∀ t u, (timerOf s t).armed = true → (timerOf s u).armed = true →
    (timerOf s t).armSeq = (timerOf s u).armSeq → t = u

/-- `t` differs from `s` at most in the record of `e`, in frames added to the TX queue, in output events added, and
in `arm_counter`: what the ARQ rules of one endpoint may do. -/
def TouchesOnly (e : Byte) (s t : State) : Prop :=
  ∃ x q o n, t = { s.setEp e x with txQueue := s.txQueue ++ q, output := s.output ++ o, armCounter := n }

/-- What a link reset makes of a record: untouched if Closed, else dropped to Closed (45_endpoint_cmds.md R310). -/
def Endpoint.linkReset (rtoInit : Nat) (x : Endpoint) : Endpoint :=
  if x.state = .closed then x else x.dropped rtoInit .closed

/-- The output events of a link reset over the endpoints `l` (45_endpoint_cmds.md R310): for each one that is not
Closed, its new state and the lost connection, in this order. -/
def resetEvents (s : State) (l : List Byte) : List Event :=
  l.flatMap fun e => if (s.ep e).state = .closed then [] else [.epState e .closed, .connLost e]

/-- The instruction runs as `j`: it is `j`, or it is the RX_BYTE that completes a frame which decodes to `j`
(42_deframer_rx.md R184, R186). -/
def runsAs (i : Instr) (s : State) (j : Instr) : Prop :=
  i = j ∨ ∃ b, i = .rxByte b ∧ (s.rxPhase = .header ∧ s.rxBuf.length = 6 ∨ s.rxPhase = .body ∧ s.rxNeed = 1) ∧
    decodeFrameBytes (s.rxBuf ++ [b]) = .ok j

/-! ## Terms of TICK -/

/-- `t` fires next: it is due, and no due timer has a smaller (deadline, arm_seq) (44_arq.md R280, R281). -/
def firesNext (s : State) (t : TimerRef) : Prop :=
  isDue s.now (timerOf s t) = true ∧ ∀ u, isDue s.now (timerOf s u) = true →
    (timerOf s t).deadline < (timerOf s u).deadline ∨
      (timerOf s t).deadline = (timerOf s u).deadline ∧ (timerOf s t).armSeq ≤ (timerOf s u).armSeq

/-- TICK's loop from one state to another, each choice made anew: a due timer that fires next is cancelled and its
handler runs, until no timer is due (44_arq.md R280). -/
inductive FiringRun : State → State → Prop
  | stop (s : State) : (∀ t, isDue s.now (timerOf s t) = false) → FiringRun s s
  | fire (s s' : State) (t : TimerRef) : firesNext s t → FiringRun (fireTimer t s) s' → FiringRun s s'

/-- The timer is armed and due at the next TICK (44_arq.md R280). -/
def dueAtTick (s : State) (t : TimerRef) : Prop :=
  (timerOf s t).armed = true ∧ (timerOf s t).deadline ≤ s.now + 1

/-- `t` fires before `u`: the order of the pair (deadline, arm_seq) (44_arq.md R281). -/
def ahead (s : State) (t u : TimerRef) : Prop :=
  (timerOf s t).deadline < (timerOf s u).deadline ∨
    (timerOf s t).deadline = (timerOf s u).deadline ∧ (timerOf s t).armSeq < (timerOf s u).armSeq

/-- No timer but `t` and `u` is due at the next TICK. -/
def noneDueBut (s : State) (t u : TimerRef) : Prop :=
  ∀ v, v ≠ t → v ≠ u → (timerOf s v).armed = true → s.now + 1 < (timerOf s v).deadline

/-- The frames the handler of `t` sends: the oldest stored one again, or an RR that is still owed (44_arq.md R263,
R270). -/
def timerFrames (s : State) (t : TimerRef) : List Bytes :=
  let x := s.ep t.ep
  match t.kind with
  | .rtx => if s.cfg.maxRetries ≤ x.retryCount then [] else (x.rtxQueue.take 1).map (·.frame)
  | .ack =>
    if x.state = .opened ∧ x.ackPending = true then [frameBytes t.ep (0x80 ||| x.expectedRx.setWidth 8) []] else []

/-- The output events of the handler of `t` (44_arq.md R263, R270, R271). -/
def timerEvents (s : State) (t : TimerRef) : List Event :=
  let x := s.ep t.ep
  match t.kind with
  | .rtx =>
    .timeout t.ep (x.retryCount + 1) ::
      if s.cfg.maxRetries ≤ x.retryCount then [.epState t.ep (.error .faultNoAck)]
      else (x.rtxQueue.take 1).map fun E => .retransmit t.ep E.seq
  | .ack => []

end Sys2Proof.Machine
end

