-- ==== Sys2Proof/Certificates/Slice0/Obligations.lean ====
section
/-! DEFINITION. The statements for the provers. `e`, `x`, `P`, `s` are an endpoint, its record, a payload and a state;
an equation `exec i s = .next t` with `t` written as an update of `s` says that nothing else changes. `⟨false, d, q⟩` is
a cancelled timer: 00_scope.md R17 says no more of it than that it is not armed. -/

open Sys2Proof Sys2Proof.Machine

/-! ## Encodings and CRC -/

/-- Decode and encode agree: every well-formed instruction is what its own encoding decodes to. Of the many byte strings
of a corrupt frame, the model encodes one (its choice, log 12). -/
def Obligations.DecodeOfEncode : Prop :=
  ∀ i : Instr, i.wf = true → decode (encode i) = .ok i

/-- A command word has one meaning: the command it decodes to encodes back to the same word, and a payload that the
command carries is the one that came with the word. -/
def Obligations.DecodedWordEncodesBack : Prop :=
  ∀ (w : Word) (P : Bytes) (i : Instr), decodeCommand w P = .ok i →
    ∃ Q, encode i = .command w Q ∧ ∀ e R, i = .write e R ∨ i = .uiSend e R → R = P ∧ Q = P

/-- A byte string has one meaning: a frame that is not corrupt encodes back to the very bytes it was decoded from. -/
def Obligations.DecodedFrameEncodesBack : Prop :=
  ∀ (bs : Bytes) (i : Instr) (k : FrameKind) (f : RxFrame),
    decodeFrameBytes bs = .ok i → instrFrame i = some (k, f) → f.corrupt = false → encode i = .frame bs

/-- R110: exactly the bytes 0xA0..0xBF and the U-frame bytes other than 0xC0, 0xC4, 0xCE and 0xF1 are UNKNOWN, 92 in
all, and a frame with one is the violation UnknownType. -/
def Obligations.UnknownControlBytes : Prop :=
  (∀ c : Byte, kind c = .unknown ↔
    (0xA0 ≤ c.toNat ∧ c.toNat ≤ 0xBF) ∨
      (0xC0 ≤ c.toNat ∧ c ≠ 0xC0 ∧ c ≠ 0xC4 ∧ c ≠ 0xCE ∧ c ≠ 0xF1)) ∧
  ((List.range 256).filter fun n => kind (BitVec.ofNat 8 n) = .unknown).length = 92 ∧
  ∀ a c P corrupt s, kind c = .unknown → dispatch a c P corrupt s = raiseViolation .unknownType s

/-- R123: a reserved word gives one CmdReject(op, ep, BadCommand), its payload is discarded, and nothing else changes;
every other word spells a command. -/
def Obligations.ReservedWordsAreRefused : Prop :=
  (∀ (s : State) (w : Word) (P : Bytes) (rest : List InputEvent) (op : CmdOp),
    s.input = { word := w, payload := P } :: rest → refusedWord w = some op →
      step s = .next { s with
        input := rest
        output := s.output ++ [.cmdReject op (w.setWidth 8) .badCommand] }) ∧
  ∀ (w : Word) (P : Bytes), refusedWord w = none → ∃ i, decodeCommand w P = .ok i

/-- Words and control bytes written out from the tables of 30_encoding.md decode to the instructions they stand for.
That an 8-bit row is the control byte of a frame with address 0, no payload and no corruption is the choice of
`decodeTableWord` (log 11). -/
def Obligations.SampleWordsDecode : Prop :=
  decodeTableWord 16 0b0001111100000011 = some (.openEp 3 7 true) ∧
  decodeTableWord 16 0b0111001000000110 = some (.fail 6 .destUnreach) ∧
  decodeTableWord 16 0b1001001000000000 = some (.secState .initialized) ∧
  decodeTableWord 16 0b1011000010101010 = some (.rxByte 0xAA) ∧
  decodeTableWord 8 0b00101001 = some (.iFrame ⟨0, [], false⟩ 2 true 1) ∧
  decodeTableWord 8 0b10010110 = some (.rej ⟨0, [], false⟩ false 6) ∧
  decodeTableWord 8 0b11110001 = some (.ureset ⟨0, [], false⟩) ∧
  decodeTableWord 8 0b10100000 = none

/-- The byte-at-a-time form computes the CRC of every byte string, with the rule's example table entries. The spec
derives this (40_crc.md R141). -/
def Obligations.CrcByteAtATime : Prop :=
  (∀ B : Bytes, B.foldl crcStep 0 = crc16 B) ∧
  crc16 [0x00] = 0x0000 ∧ crc16 [0x01] = 0x1021 ∧ crc16 [0x02] = 0x2042 ∧ crc16 [0x14] = 0x52B5 ∧
  crc16 [0xFF] = 0x1EF0

/-- (a) leading zero bytes do not change the CRC; (b) appending the CRC big-endian gives residue 0, and the header of
the rule's example, stored little-endian, does not; (c) the example values. The spec derives this (40_crc.md R145). -/
def Obligations.CrcCornerProperties : Prop :=
  (∀ B : Bytes, crc16 (0x00 :: B) = crc16 B) ∧
  (∀ B : Bytes, crc16 (B ++ [(crc16 B >>> 8).setWidth 8, (crc16 B).setWidth 8]) = 0) ∧
  crc16 [0x14, 0x03, 0x04, 0x00, 0x08, 0x48, 0x4B] = 0x6530 ∧
  crc16 [0x00] = 0x0000 ∧ crc16 [0x01] = 0x1021 ∧ crc16 [0x14] = 0x52B5 ∧ crc16 [0xFF, 0xFF] = 0x1D0F ∧
  crc16 [0x41] = 0x58E5

/-- R160: the bytes of an encoded frame, by the layout of R100 to R103: flag, address, little-endian length, control,
HCS over those five bytes, then the payload and its FCS if there is a payload; and the failure above MTU. -/
def Obligations.FrameLayout : Prop :=
  let lo (x : Nat) : Byte := BitVec.ofNat 8 (x % 256)
  let hi (x : Nat) : Byte := BitVec.ofNat 8 (x / 256)
  ∀ (mtu : Nat) (a c : Byte) (P : Bytes), mtu ≤ 65535 →
    let H5 : Bytes := [0x14, a, lo P.length, hi P.length, c]
    let hcs := (crc16 H5).toNat
    let fcs := (crc16 P).toNat
    encodeFrame mtu a c P =
      if mtu < P.length then none
      else if P = [] then some (H5 ++ [lo hcs, hi hcs])
      else some (H5 ++ [lo hcs, hi hcs] ++ P ++ [lo fcs, hi fcs])

/-- Every header and payload the encoder builds passes `hcs_ok` and `fcs_ok`, and a frame of a kind decodes to the
instruction of its own address, control byte and payload. The spec derives this (40_crc.md R147). -/
def Obligations.EncodedFramesValidate : Prop :=
  ∀ (a c : Byte) (P : Bytes), P.length ≤ 65535 →
    (∃ h, headerAt (frameBytes a c P) = some h ∧ hcsOk h = true ∧ h.length = P.length) ∧
    (P ≠ [] → ∃ f0 f1, (frameBytes a c P).drop 7 = P ++ [f0, f1] ∧ fcsOk P f0 f1 = true) ∧
    ∀ i, decodeFrame a c P false = .ok i → decodeFrameBytes (frameBytes a c P) = .ok i

/-! ## Reset and step -/

/-- R380: the reset value of every piece of state, for every configuration, and the same for the implementation's. -/
def Obligations.ResetValues : Prop :=
  (∀ cfg : Config,
    let s := State.resetWith cfg
    s.cfg = cfg ∧ s.now = 0 ∧ s.armCounter = 0 ∧ s.rxPhase = .hunt ∧ s.rxBuf = [] ∧ s.rxNeed = 0 ∧
    s.session = .notReady ∧ s.txQueue = [] ∧ s.txPos = 0 ∧ s.violHist = [] ∧
    ∀ e : Byte,
      let x := s.ep e
      x.state = .closed ∧ x.awaitingUack = false ∧ x.window = 1 ∧ x.encrypted = false ∧ x.nextTx = 0 ∧
      x.expectedRx = 0 ∧ x.outstanding = 0x00 ∧ x.rtxQueue = [] ∧ x.pending = [] ∧ x.rxQueue = [] ∧
      x.rto = cfg.rtoInit ∧ x.retryCount = 0 ∧ x.ackPending = false ∧
      x.rtxTimer = { armed := false, deadline := 0, armSeq := 0 } ∧
      x.ackTimer = { armed := false, deadline := 0, armSeq := 0 }) ∧
  State.reset = State.resetWith Config.implementation

/-- The reset state satisfies every invariant of R55 (and the ranges of `State.Inv`), emits no event and has an empty TX
queue. The empty `input` is the model's choice (log 2). The spec derives this (70_reset_and_hazards.md R381); the
ranges are read from the rules of each field. -/
def Obligations.ResetIsLegal : Prop :=
  State.reset.Inv ∧ State.reset.output = [] ∧ State.reset.txQueue = [] ∧
  ∀ cfg : Config, cfg.Valid → (State.resetWith cfg).Inv

/-- A step takes the next input event and runs the command its word decodes to; with no event to come it changes nothing
(the model's choice, log 2). -/
def Obligations.StepRunsTheDecodedCommand : Prop :=
  (∀ (s : State) (w : Word) (P : Bytes) (rest : List InputEvent) (i : Instr),
    s.input = { word := w, payload := P } :: rest → decodeCommand w P = .ok i →
      step s = exec i { s with input := rest }) ∧
  ∀ s : State, s.input = [] → step s = .next s

/-- The RX_BYTE that completes a frame runs the instruction the frame's bytes decode to, on the state with the deframer
back in HUNT and, for a payload that fails its FCS, FrameCorrupt emitted (42_deframer_rx.md R184, R186, R187). That
a frame kind is an instruction is how the model reads the opcode table (log 11). -/
def Obligations.CompletedFrameRunsItsInstruction : Prop :=
  ∀ (s : State) (b : Byte) (i : Instr) (k : FrameKind) (f : RxFrame),
    (s.rxPhase = .header ∧ s.rxBuf.length = 6 ∨ s.rxPhase = .body ∧ s.rxNeed = 1 ∧ 7 ≤ s.rxBuf.length) →
    decodeFrameBytes (s.rxBuf ++ [b]) = .ok i → instrFrame i = some (k, f) →
      exec (.rxByte b) s = exec i { s with
        rxPhase := .hunt
        rxBuf := []
        rxNeed := 0
        output := s.output ++ if f.corrupt then [.frameCorrupt f.addr] else [] }

/-- Dispatch is decoding and running: R210's `dispatch` of a control byte that has a kind runs the frame instruction of
its operands. That a frame kind is an instruction is how the model reads the opcode table (log 11). -/
def Obligations.DispatchRunsTheDecodedFrame : Prop :=
  ∀ (a c : Byte) (P : Bytes) (corrupt : Bool) (i : Instr) (s : State),
    decodeFrame a c P corrupt = .ok i → exec i s = .next (dispatch a c P corrupt s)

/-! ## Deframer -/

/-- R182: in HUNT a flag byte starts a header and any other byte is discarded with Garbage(1). -/
def Obligations.HuntSeeksTheFlag : Prop :=
  ∀ (b : Byte) (s : State), s.rxPhase = .hunt →
    exec (.rxByte b) s = .next (
      if b = 0x14 then { s with rxPhase := .header, rxBuf := [b] }
      else { s with output := s.output ++ [.garbage 1] })

/-- R183, R184: in HEADER a byte is appended; the seventh is checked: HCS first, then the length cap, then a frame
without payload is dispatched and any other goes on in BODY. -/
def Obligations.HeaderCheckOrder : Prop :=
  ∀ (b : Byte) (s : State), s.rxPhase = .header →
    (s.rxBuf.length ≠ 6 → exec (.rxByte b) s = .next { s with rxBuf := s.rxBuf ++ [b] }) ∧
    ∀ f a l0 l1 c h0, s.rxBuf = [f, a, l0, l1, c, h0] →
      let L := l0.toNat + 256 * l1.toNat
      let s0 := { s with rxPhase := .hunt, rxBuf := [], rxNeed := 0 }
      exec (.rxByte b) s = .next (
        if crc16 [f, a, l0, l1, c] ≠ BitVec.ofNat 16 (h0.toNat + 256 * b.toNat) then
          { s0 with output := s.output ++ [.garbage 7] }
        else if s.cfg.mtu < L then raiseViolation .oversize { s0 with output := s.output ++ [.garbage 7] }
        else if L = 0 then dispatch a c [] false s0
        else { s with rxPhase := .body, rxBuf := s.rxBuf ++ [b], rxNeed := L + 2 })

/-- R185, R186: in BODY a byte is appended; the last one is followed by the FCS check, and the frame is dispatched
either way, with FrameCorrupt and the corrupt marker if the FCS fails. -/
def Obligations.BodyCollectsThenChecks : Prop :=
  ∀ (b : Byte) (s : State), s.rxPhase = .body →
    (∀ n, s.rxNeed = n + 2 → exec (.rxByte b) s = .next { s with rxBuf := s.rxBuf ++ [b], rxNeed := n + 1 }) ∧
    ∀ f a l0 l1 c h0 h1 P f0, s.rxNeed = 1 → s.rxBuf = [f, a, l0, l1, c, h0, h1] ++ P ++ [f0] →
      P.length = l0.toNat + 256 * l1.toNat →
      let s0 := { s with rxPhase := .hunt, rxBuf := [], rxNeed := 0 }
      exec (.rxByte b) s = .next (
        if crc16 P = BitVec.ofNat 16 (f0.toNat + 256 * b.toNat) then dispatch a c P false s0
        else dispatch a c P true { s0 with output := s.output ++ [.frameCorrupt a] })

/-- An encoded frame of at most MTU payload bytes, delivered byte by byte from HUNT, is dispatched with its own address,
control byte and payload, not corrupt, and does nothing else. The spec derives this (41_framer_tx.md R162). -/
def Obligations.EncodedFrameIsDispatched : Prop :=
  ∀ (s : State) (a c : Byte) (P : Bytes), s.rxPhase = .hunt → P.length ≤ s.cfg.mtu → s.cfg.mtu ≤ 65535 →
    execAll ((frameBytes a c P).map Instr.rxByte) s =
      .next (dispatch a c P false { s with rxPhase := .hunt, rxBuf := [], rxNeed := 0 })

/-! ## Received frames -/

/-- The checks on a frame with a kind, in dispatch's order: Malformed (R212, whatever its FCS), ReservedAddress (R210,
R211), UIAddress (R210, R221); each raises its violation and does nothing else. -/
def Obligations.DispatchChecksInOrder : Prop :=
  ∀ (i : Instr) (k : FrameKind) (f : RxFrame) (s : State), instrFrame i = some (k, f) →
    ((k = .rr ∨ k = .rej ∨ k = .upf ∨ k = .uack ∨ k = .ureset) → f.payload ≠ [] →
      exec i s = .next (raiseViolation .malformed s)) ∧
    ((k = .i ∨ k = .ui ∨ f.payload = []) → f.addr = 15 → exec i s = .next (raiseViolation .reservedAddress s)) ∧
    (k = .ui → f.addr ≠ 15 → f.addr ≠ 0 → exec i s = .next (raiseViolation .uiAddress s))

/-- R213: an I-, RR- or REJ-frame for an endpoint that is not Open, or awaits its U-Ack, is dropped with RxDrop(NotOpen)
and changes nothing else. -/
def Obligations.InadmissibleFramesAreDropped : Prop :=
  ∀ (f : RxFrame) (n A : Seq) (pf : Bool) (s : State), f.addr ≠ 15 →
    ((s.ep f.addr).state ≠ .opened ∨ (s.ep f.addr).awaitingUack = true) →
    let t := { s with output := s.output ++ [.rxDrop f.addr .notOpen] }
    exec (.iFrame f n pf A) s = .next t ∧
    (f.payload = [] → exec (.rr f pf A) s = .next t ∧ exec (.rej f pf A) s = .next t)

/-- R216: an in-order I-frame is delivered, advances `expected_rx` and schedules its ack, the timer armed only if it is
not running; with a full RX queue it is dropped without either. The ack field is processed after it (R215). -/
def Obligations.InOrderFrameIsDelivered : Prop :=
  ∀ (f : RxFrame) (n A : Seq) (pf : Bool) (s : State),
    let e := f.addr
    let x := s.ep e
    e ≠ 15 → x.state = .opened → x.awaitingUack = false → f.corrupt = false → n = x.expectedRx →
    exec (.iFrame f n pf A) s = .next (processAck e A (
      if s.cfg.rxQueueCap ≤ x.rxQueue.length then { s with output := s.output ++ [.rxDrop e .rxFull] }
      else
        { s.setEp e { x with
            rxQueue := x.rxQueue ++ [f.payload]
            expectedRx := x.expectedRx + 1
            ackPending := true
            ackTimer := if x.ackTimer.armed then x.ackTimer
              else { armed := true, deadline := s.now + s.cfg.ackDelay, armSeq := s.armCounter } } with
          output := s.output ++ [.delivered e (some n) f.payload.length]
          armCounter := if x.ackTimer.armed then s.armCounter else s.armCounter + 1 }))

/-- R214, R217, R218: a corrupt frame and a gap (1..3 ahead) give a REJ, a duplicate (4..7) an RR, each for the current
`expected_rx`; the payload is dropped, the pending ack counts as sent, and the ack field is then processed. -/
def Obligations.UnacceptedFramesAreAnswered : Prop :=
  ∀ (f : RxFrame) (n A : Seq) (pf : Bool) (s : State),
    let e := f.addr
    let x := s.ep e
    let dist := (n - x.expectedRx).toNat
    let answered (d q : Nat) (ctrl : Byte) (why : DropReason) : State :=
      { s.setEp e { x with ackPending := false, ackTimer := ⟨false, d, q⟩ } with
        txQueue := s.txQueue ++ [frameBytes e (ctrl ||| x.expectedRx.setWidth 8) []]
        output := s.output ++ [.rxDrop e why] }
    e ≠ 15 → x.state = .opened → x.awaitingUack = false → ∃ d q,
    (f.corrupt = true → exec (.iFrame f n pf A) s = .next (processAck e A (answered d q 0x90 .corrupt))) ∧
    (f.corrupt = false → 1 ≤ dist → dist ≤ 3 →
      exec (.iFrame f n pf A) s = .next (processAck e A (answered d q 0x90 .gap))) ∧
    (f.corrupt = false → 4 ≤ dist →
      exec (.iFrame f n pf A) s = .next (processAck e A (answered d q 0x80 .duplicate)))

/-- R260: an admissible RR applies its ack A: with k the distance of A from the base, k above the number of outstanding
frames is AckInvalid and nothing else; k = 0 changes nothing; else the k oldest frames go, the retry count and the
RTO are reset, the timer is cancelled or restarted, Acked(e, k) is emitted and the pending writes drain. -/
def Obligations.RrAcknowledges : Prop :=
  ∀ (f : RxFrame) (pf : Bool) (A : Seq) (s : State),
    let e := f.addr
    let x := s.ep e
    let base := (x.rtxQueue.head?.map (·.seq)).getD x.nextTx
    let k := (A - base).toNat
    e ≠ 15 → f.payload = [] → x.state = .opened → x.awaitingUack = false →
    ∃ d q, exec (.rr f pf A) s = .next (
      if x.rtxQueue.length < k then { s with output := s.output ++ [.ackInvalid e A] }
      else if k = 0 then s
      else
        drainPending e { s.setEp e { x with
            rtxQueue := x.rtxQueue.drop k
            outstanding := (x.rtxQueue.take k).foldl (fun m E => m &&& ~~~ (1#8 <<< E.seq.toNat)) x.outstanding
            retryCount := 0
            rto := s.cfg.rtoInit
            rtxTimer := if x.rtxQueue.length = k then ⟨false, d, q⟩
              else { armed := true, deadline := s.now + s.cfg.rtoInit, armSeq := s.armCounter } } with
          output := s.output ++ [.acked e k]
          armCounter := if x.rtxQueue.length = k then s.armCounter else s.armCounter + 1 })

/-- After a valid ack A that leaves a non-empty retransmit queue, the queue's head has sequence number A. The spec
derives this (44_arq.md R261). -/
def Obligations.HeadAfterAckIsA : Prop :=
  ∀ (e : Byte) (A : Seq) (s : State) (E : RtxEntry), EpInv s.cfg e (s.ep e) → ackValid (s.ep e) A = true →
    ((processAck e A s).ep e).rtxQueue.head? = some E → E.seq = A

/-- An admissible REJ with an invalid ack does what the ack does and no more; with a valid one it acknowledges first,
then sends every frame still stored again, unchanged and in order, and restarts the timer with the current RTO; with
nothing stored it is ignored. That the frames the ack itself has just let go are repeated too is the model's reading
of R220 and R264 (log 15). -/
def Obligations.RejRetransmitsFromA : Prop :=
  ∀ (f : RxFrame) (pf : Bool) (A : Seq) (s : State),
    let e := f.addr
    let u := processAck e A s
    let y := u.ep e
    e ≠ 15 → f.payload = [] → (s.ep e).state = .opened → (s.ep e).awaitingUack = false →
    exec (.rej f pf A) s = .next (
      if ackValid (s.ep e) A = false ∨ y.rtxQueue = [] then u
      else
        { u.setEp e { y with
            rtxTimer := { armed := true, deadline := u.now + y.rto, armSeq := u.armCounter } } with
          txQueue := u.txQueue ++ y.rtxQueue.map (·.frame)
          output := u.output ++ y.rtxQueue.map fun E => .retransmit e E.seq
          armCounter := u.armCounter + 1 })

/-- A UI frame at address 0 puts its payload into endpoint 0's RX queue outside the ARQ; it is dropped if corrupt, if
endpoint 0 is not Open, or if the queue is full. -/
def Obligations.UiFrameBypassesArq : Prop :=
  ∀ (f : RxFrame) (s : State), f.addr = 0 →
    let x := s.ep 0
    let drop (r : DropReason) : State := { s with output := s.output ++ [.rxDrop 0 r] }
    exec (.ui f) s = .next (
      if f.corrupt = true then drop .corrupt
      else if x.state ≠ .opened then drop .notOpen
      else if s.cfg.rxQueueCap ≤ x.rxQueue.length then drop .rxFull
      else { s.setEp 0 { x with rxQueue := x.rxQueue ++ [f.payload] } with
        output := s.output ++ [.delivered 0 none f.payload.length] })

/-- A U-Reset at an address other than 0 and 15 is answered with a U-Ack. An Open endpoint stays Open with its ARQ state
at reset values and no wait; a Closing one becomes Closed; any other is left alone. The RX queue stays. -/
def Obligations.UResetResetsOneEndpoint : Prop :=
  ∀ (f : RxFrame) (s : State),
    let e := f.addr
    let x := s.ep e
    let flushed : Endpoint := { x with
      nextTx := 0, expectedRx := 0, outstanding := 0, rtxQueue := [], rto := s.cfg.rtoInit, retryCount := 0,
      rtxTimer := Timer.off, ackPending := false, pending := [], ackTimer := Timer.off }
    let acked : State := { s with txQueue := s.txQueue ++ [frameBytes e 0xCE []] }
    e ≠ 0 → e ≠ 15 → f.payload = [] →
    exec (.ureset f) s = .next (
      if x.state = .opened then
        { acked.setEp e { flushed with awaitingUack := false } with output := s.output ++ [.epReset e] }
      else if x.state = .closing then
        { acked.setEp e { flushed with state := .closed } with output := s.output ++ [.epState e .closed] }
      else acked)

/-- A U-Reset at address 0 link-resets endpoints 1..255 (cause PeerReset), then queues the U-Ack, then resets endpoint 0
as any endpoint; its output events come in this order. The order is derived in the spec (60_exceptions.md R352). -/
def Obligations.UResetAtZeroResetsTheLink : Prop :=
  ∀ (f : RxFrame) (s : State), f.addr = 0 → f.payload = [] →
    let x := s.ep 0
    ∃ t, exec (.ureset f) s = .next t ∧
      (∀ e, e ≠ 0 → t.ep e = (s.ep e).linkReset s.cfg.rtoInit) ∧
      t.ep 0 = (if x.state = .opened then { x.flushed s.cfg.rtoInit with awaitingUack := false }
        else if x.state = .closing then { x.flushed s.cfg.rtoInit with state := .closed }
        else x) ∧
      t = { s with
        eps := t.eps
        txQueue := (if 0 < s.txPos then s.txQueue.take 1 else []) ++ [frameBytes 0 0xCE []]
        violHist := []
        output := s.output ++ resetEvents s (endpointsFrom 1) ++ [.linkReset .peerReset] ++
          (if x.state = .opened then [.epReset 0]
            else if x.state = .closing then [.epState 0 .closed]
            else []) }

/-- R225: a U-Ack ends the wait of an Open endpoint (Opened, and its pending writes drain), or completes a Closing one;
otherwise it is ignored. -/
def Obligations.UAckCompletesReset : Prop :=
  ∀ (f : RxFrame) (s : State),
    let e := f.addr
    let x := s.ep e
    e ≠ 15 → f.payload = [] →
    exec (.uack f) s = .next (
      if x.state = .opened ∧ x.awaitingUack = true then
        drainPending e { s.setEp e { x with awaitingUack := false } with output := s.output ++ [.opened e] }
      else if x.state = .closing then
        { s.setEp e { x with state := .closed } with output := s.output ++ [.epState e .closed] }
      else { s with output := s.output ++ [.rxDrop e .ignored] })

/-- R226: a U-PF has no effect beyond RxDrop(a, Ignored). -/
def Obligations.UPollFinalIsIgnored : Prop :=
  ∀ (f : RxFrame) (s : State), f.addr ≠ 15 → f.payload = [] →
    exec (.upf f) s = .next { s with output := s.output ++ [.rxDrop f.addr .ignored] }

/-! ## Protocol violations -/

/-- R357: a violation emits its event and stamps the history, which keeps the newest VIOL_COUNT stamps. Fewer stamps
than VIOL_COUNT do no more; a full history does a link reset of every endpoint exactly if the oldest stamp lies less
than VIOL_WINDOW back. -/
def Obligations.ViolationThreshold : Prop :=
  ∀ (r : ViolReason) (s : State),
    let s' := { s with output := s.output ++ [.violation r], violHist := s.violHist ++ [s.now] }
    (s.violHist.length + 1 < s.cfg.violCount → raiseViolation r s = s') ∧
    ∀ oldest rest, s.cfg.violCount ≤ s.violHist.length + 1 →
      (s.violHist ++ [s.now]).drop (s.violHist.length + 1 - s.cfg.violCount) = oldest :: rest →
      raiseViolation r s =
        if s.now < oldest + s.cfg.violWindow then
          linkResetEndpoints 0 .violations { s' with violHist := oldest :: rest }
        else { s' with violHist := oldest :: rest }

/-- R309, R310: a link reset from `first` takes every endpoint from there that is not Closed to Closed with its state
dropped, and leaves the others; it tells the host in ascending order, trims the TX queue to the frame partly sent,
clears the violation history, and changes nothing else. LINK_RESET is that from 0, cause Host, and CmdOk. -/
def Obligations.LinkResetProcedure : Prop :=
  (∀ (first : Nat) (cause : ResetCause) (s : State),
    let t := linkResetEndpoints first cause s
    (∀ e : Byte, t.ep e =
      if e.toNat < first ∨ (s.ep e).state = .closed then s.ep e
      else { s.ep e with
        state := .closed, awaitingUack := false, nextTx := 0, expectedRx := 0, outstanding := 0, rtxQueue := [],
        rto := s.cfg.rtoInit, retryCount := 0, rtxTimer := Timer.off, ackPending := false, pending := [],
        ackTimer := Timer.off, rxQueue := [] }) ∧
    t = { s with
      eps := t.eps
      txQueue := if 0 < s.txPos then s.txQueue.take 1 else []
      violHist := []
      output := s.output ++ resetEvents s (endpointsFrom first) ++ [.linkReset cause] }) ∧
  ∀ s : State, exec .linkReset s = .next ((linkResetEndpoints 0 .host s).out (.cmdOk .opLinkReset 0))

/-- After a link reset of every endpoint, each is Closed with sequence numbers 0, queues empty and timers disarmed, and
the TX queue holds at most one frame. The spec derives this (45_endpoint_cmds.md R311). -/
def Obligations.LinkResetClosesEverything : Prop :=
  ∀ (cause : ResetCause) (s : State), s.Inv →
    let t := linkResetEndpoints 0 cause s
    t.txQueue.length ≤ 1 ∧
    ∀ e : Byte,
      let x := t.ep e
      x.state = .closed ∧ x.nextTx = 0 ∧ x.expectedRx = 0 ∧ x.rtxQueue = [] ∧ x.pending = [] ∧ x.rxQueue = [] ∧
      x.rtxTimer.armed = false ∧ x.ackTimer.armed = false

/-! ## Host commands -/

/-- R300: OPEN is refused on endpoint 15, with window 0, on an Open or Closing endpoint, and on the sticky error, in
this order. Otherwise endpoint 0 first link-resets the others; the endpoint becomes Open and awaiting with fresh ARQ
state, its window, and enc (never on endpoints 0 and 14); a U-Reset is queued, and EpState and CmdOk follow. -/
def Obligations.OpenCommand : Prop :=
  ∀ (e : Byte) (w : BitVec 3) (enc : Bool) (s : State),
    let st := (s.ep e).state
    let refuse (r : RejectReason) : State := { s with output := s.output ++ [.cmdReject (.cmd .opOpen) e r] }
    let s0 := if e = 0 then linkResetEndpoints 1 .systemEndpoint s else s
    exec (.openEp e w enc) s = .next (
      if e = 15 then refuse .badEndpoint
      else if w = 0 then refuse .badWindow
      else if st = .opened ∨ st = .closing then refuse .alreadyOpen
      else if st = .error .securityIncident then refuse .sticky
      else
        { s0.setEp e {
            state := .opened
            awaitingUack := true
            window := w
            encrypted := if e = 0 ∨ e = 14 then false else enc
            nextTx := 0
            expectedRx := 0
            outstanding := 0
            rtxQueue := []
            rto := s.cfg.rtoInit
            retryCount := 0
            rtxTimer := Timer.off
            ackPending := false
            pending := []
            ackTimer := Timer.off
            rxQueue := [] } with
          txQueue := s0.txQueue ++ [frameBytes e 0xF1 []]
          output := s0.output ++ [.epState e .opened, .cmdOk .opOpen e] })

/-- R302: CLOSE of a Closed or Closing endpoint, or of the sticky error, only answers CmdOk. An Open endpoint drops all
it holds, becomes Closing and queues a U-Reset, endpoint 0 after a link reset of the others. From ConnectionLost and
the other errors the endpoint becomes Closed, with no frame. -/
def Obligations.CloseCommand : Prop :=
  ∀ (e : Byte) (s : State),
    let x := s.ep e
    let s0 := if e = 0 then linkResetEndpoints 1 .systemEndpoint s else s
    exec (.closeEp e) s = .next (
      if x.state = .closed ∨ x.state = .closing ∨ x.state = .error .securityIncident then
        { s with output := s.output ++ [.cmdOk .opClose e] }
      else if x.state = .opened then
        { s0.setEp e { x with
            state := .closing, awaitingUack := false, nextTx := 0, expectedRx := 0, outstanding := 0, rtxQueue := [],
            rto := s.cfg.rtoInit, retryCount := 0, rtxTimer := Timer.off, ackPending := false, pending := [],
            ackTimer := Timer.off, rxQueue := [] } with
          txQueue := s0.txQueue ++ [frameBytes e 0xF1 []]
          output := s0.output ++ [.epState e .closing, .cmdOk .opClose e] }
      else
        { s.setEp e { x with state := .closed } with
          output := s.output ++ [.epState e .closed, .cmdOk .opClose e] })

/-- A second CLOSE of the same endpoint answers CmdOk and changes no state. The spec derives this (45_endpoint_cmds.md
R305). -/
def Obligations.CloseIsIdempotent : Prop :=
  ∀ (e : Byte) (s t : State), exec (.closeEp e) s = .next t →
    exec (.closeEp e) t = .next { t with output := t.output ++ [.cmdOk .opClose e] }

/-- R306, R307: FAIL is refused on endpoint 15, and leaves the sticky error alone for another cause; otherwise the
endpoint drops all it holds and enters the Error state of the cause, with no frame. -/
def Obligations.FailCommand : Prop :=
  ∀ (e : Byte) (cause : FailCause) (s : State),
    let x := s.ep e
    let y : ErrorKind := match cause with
      | .remoteError => .remoteError
      | .securityIncident => .securityIncident
      | .destUnreach => .destUnreach
    exec (.fail e cause) s = .next (
      if e = 15 then { s with output := s.output ++ [.cmdReject (.cmd .opFail) e .badEndpoint] }
      else if x.state = .error .securityIncident ∧ cause ≠ .securityIncident then
        { s with output := s.output ++ [.cmdOk .opFail e] }
      else
        { s.setEp e { x with
            state := .error y, awaitingUack := false, nextTx := 0, expectedRx := 0, outstanding := 0, rtxQueue := [],
            rto := s.cfg.rtoInit, retryCount := 0, rtxTimer := Timer.off, ackPending := false, pending := [],
            ackTimer := Timer.off, rxQueue := [] } with
          output := s.output ++ [.epState e (.error y), .cmdOk .opFail e] })

/-- R312: RX_POP takes the oldest payload, or answers RxEmpty. -/
def Obligations.RxPopCommand : Prop :=
  ∀ (e : Byte) (s : State),
    exec (.rxPop e) s = .next (
      match (s.ep e).rxQueue with
      | [] => { s with output := s.output ++ [.rxEmpty e] }
      | P :: rest => { s.setEp e { s.ep e with rxQueue := rest } with output := s.output ++ [.rxData e P] })

/-- R313: STATUS reports the twelve fields and changes no state. -/
def Obligations.StatusCommand : Prop :=
  ∀ (e : Byte) (s : State),
    let x := s.ep e
    exec (.status e) s = .next { s with output := s.output ++ [.status {
      ep := e, state := x.state, awaitingUack := x.awaitingUack, window := x.window, encrypted := x.encrypted,
      nextTx := x.nextTx, expectedRx := x.expectedRx, outstanding := x.outstanding, pendingLen := x.pending.length,
      rxQueueLen := x.rxQueue.length, retryCount := x.retryCount, rto := x.rto }] }

/-- R314: SEC_STATE sets the session state; Initialized then drains the pending lists in ascending order of endpoints,
after which each is empty or blocked; CmdOk is last. -/
def Obligations.SecStateCommand : Prop :=
  ∀ (v : SessionState) (s : State),
    let s' := { s with session := v }
    (v ≠ .initialized →
      exec (.secState v) s = .next { s' with output := s.output ++ [.cmdOk .opSecState 0] }) ∧
    (v = .initialized → ∃ t,
      exec (.secState v) s = .next { t with output := t.output ++ [.cmdOk .opSecState 0] } ∧
      t = ((List.range 256).map (BitVec.ofNat 8)).foldl (fun u e => drainPending e u) s' ∧
      ∀ e, (t.ep e).pending = [] ∨ canSend t e = false)

/-- R315: UI_SEND is refused on an endpoint other than 0, above MTU, and with endpoint 0 not Open, in this order;
otherwise it queues one UI frame and answers CmdOk. -/
def Obligations.UiSendCommand : Prop :=
  ∀ (e : Byte) (P : Bytes) (s : State),
    let refuse (r : RejectReason) : State := { s with output := s.output ++ [.cmdReject (.cmd .opUiSend) e r] }
    exec (.uiSend e P) s = .next (
      if e ≠ 0 then refuse .badEndpoint
      else if s.cfg.mtu < P.length then refuse .tooLarge
      else if (s.ep 0).state ≠ .opened then refuse .notOpen
      else { s with txQueue := s.txQueue ++ [frameBytes 0 0xC0 P], output := s.output ++ [.cmdOk .opUiSend 0] })

/-- R255, R257: the six answers of WRITE, its checks in order. Sent(S) sends the payload as I-frame S = next_tx with ack
= expected_rx and pf = 1, stores it with its time, marks it outstanding, counts the ack as sent and arms the rtx
timer if it is idle; Queued appends to the pending list; a refusal changes nothing. -/
def Obligations.WriteCommand : Prop :=
  ∀ (e : Byte) (P : Bytes) (s : State),
    let x := s.ep e
    let answer (w : WriteCode) : State := { s with output := s.output ++ [.writeResult e w] }
    let gate := x.encrypted = false ∨ s.session = .initialized
    let F := frameBytes e (0x08 ||| (x.nextTx.setWidth 8 <<< 4) ||| x.expectedRx.setWidth 8) P
    ∃ d q, exec (.write e P) s = .next (
      if s.cfg.mtu < P.length then answer .rejTooLarge
      else if x.state ≠ .opened then answer .rejNotOpen
      else if ¬gate then answer .rejRetriable
      else if x.awaitingUack = false ∧ popcount x.outstanding < x.window.toNat ∧ x.pending = [] then
        { s.setEp e { x with
            rtxQueue := x.rtxQueue ++ [{ seq := x.nextTx, frame := F, sendTime := s.now }]
            outstanding := x.outstanding ||| (1#8 <<< x.nextTx.toNat)
            nextTx := x.nextTx + 1
            ackPending := false
            ackTimer := ⟨false, d, q⟩
            rtxTimer := if x.rtxTimer.armed then x.rtxTimer
              else { armed := true, deadline := s.now + x.rto, armSeq := s.armCounter } } with
          txQueue := s.txQueue ++ [F]
          output := s.output ++ [.writeResult e (.sent x.nextTx)]
          armCounter := if x.rtxTimer.armed then s.armCounter else s.armCounter + 1 }
      else if s.cfg.pendingCap ≤ x.pending.length then answer .rejBusy
      else { s.setEp e { x with pending := x.pending ++ [P] } with
        output := s.output ++ [.writeResult e .queued] })

/-- Draining sends a front part of the pending list, oldest first, as new I-frames with consecutive sequence numbers and
the current ack, one PendingSent each, and stops only when the list is empty or the next entry cannot be sent. The
order of submission is derived in the spec (20_memory.md R90). -/
def Obligations.DrainSendsOldestFirst : Prop :=
  ∀ (e : Byte) (s : State),
    let x := s.ep e
    let t := drainPending e s
    let entry (n : Nat) (P : Bytes) : RtxEntry :=
      let S := x.nextTx + BitVec.ofNat 3 n
      { seq := S, frame := frameBytes e (ctrlI S x.expectedRx true) P, sendTime := s.now }
    ∃ sent : List Bytes,
      x.pending = sent ++ (t.ep e).pending ∧
      (t.ep e).rtxQueue = x.rtxQueue ++ sent.mapIdx entry ∧
      (t.ep e).nextTx = x.nextTx + BitVec.ofNat 3 sent.length ∧
      t.txQueue = s.txQueue ++ (sent.mapIdx entry).map (·.frame) ∧
      t.output = s.output ++ (sent.mapIdx entry).map (fun E => .pendingSent e E.seq) ∧
      ((t.ep e).pending = [] ∨ canSend t e = false)

/-! ## The TX port -/

/-- R165: TX_PULL gives TxIdle on an empty queue and changes nothing; else the next byte of the head frame, which leaves
the queue with its last byte. -/
def Obligations.TxPullCommand : Prop :=
  ∀ s : State,
    (s.txQueue = [] → exec .txPull s = .next { s with output := s.output ++ [.txIdle] }) ∧
    ∀ F rest b, s.txQueue = F :: rest → F[s.txPos]? = some b →
      exec .txPull s = .next { s with
        txQueue := if s.txPos + 1 = F.length then rest else s.txQueue
        txPos := if s.txPos + 1 = F.length then 0 else s.txPos + 1
        output := s.output ++ [.txByte b] }

/-- Frames leave the TX port whole and in queue order: as many pulls as the frames have bytes give exactly their bytes,
frame after frame. The spec derives this (41_framer_tx.md R166). -/
def Obligations.FramesLeaveWholeInOrder : Prop :=
  ∀ (Fs rest : List Bytes) (s : State), s.txQueue = Fs ++ rest → s.txPos = 0 → (∀ F ∈ Fs, F ≠ []) →
    execAll (List.replicate Fs.flatten.length .txPull) s =
      .next { s with txQueue := rest, output := s.output ++ Fs.flatten.map .txByte }

/-! ## Time -/

/-- A TICK with nothing due changes only `now`. -/
def Obligations.TickWithNothingDue : Prop :=
  ∀ s : State, (∀ t : TimerRef, (timerOf s t).armed = true → s.now + 1 < (timerOf s t).deadline) →
    exec .tick s = .next { s with now := s.now + 1 }

/-- R270, R271: a TICK with just the rtx timer of `e` due counts a retry and emits Timeout. Past MAX_RETRIES the
endpoint drops all it holds and enters Error(FaultNoAck). Else the RTO doubles up to RTO_MAX, the oldest stored
frame is sent again unchanged, and the timer restarts. -/
def Obligations.RtxTimerExpires : Prop :=
  ∀ (e : Byte) (s : State) (E : RtxEntry) (l : List RtxEntry),
    let x := s.ep e
    let n := x.retryCount + 1
    let rto := min (2 * x.rto) s.cfg.rtoMax
    x.rtxQueue = E :: l → x.rtxTimer.armed = true → x.rtxTimer.deadline ≤ s.now + 1 → 1 ≤ rto →
    (∀ t : TimerRef, t ≠ ⟨e, .rtx⟩ → (timerOf s t).armed = true → s.now + 1 < (timerOf s t).deadline) →
    exec .tick s = .next (
      if s.cfg.maxRetries < n then
        { s.setEp e { x with
            state := .error .faultNoAck, awaitingUack := false, nextTx := 0, expectedRx := 0, outstanding := 0,
            rtxQueue := [], rto := s.cfg.rtoInit, retryCount := 0, rtxTimer := Timer.off, ackPending := false,
            pending := [], ackTimer := Timer.off, rxQueue := [] } with
          now := s.now + 1
          output := s.output ++ [.timeout e n, .epState e (.error .faultNoAck)] }
      else
        { s.setEp e { x with
            retryCount := n
            rto := rto
            rtxTimer := { armed := true, deadline := s.now + 1 + rto, armSeq := s.armCounter } } with
          now := s.now + 1
          armCounter := s.armCounter + 1
          txQueue := s.txQueue ++ [E.frame]
          output := s.output ++ [.timeout e n, .retransmit e E.seq] })

/-- R263: a TICK with just the ack timer of `e` due sends a delayed RR for the current `expected_rx` if an ack is still
owed on an Open endpoint, and disarms the timer. -/
def Obligations.DelayedAckIsSent : Prop :=
  ∀ (e : Byte) (s : State),
    let x := s.ep e
    x.ackTimer.armed = true → x.ackTimer.deadline ≤ s.now + 1 →
    (∀ t : TimerRef, t ≠ ⟨e, .ack⟩ → (timerOf s t).armed = true → s.now + 1 < (timerOf s t).deadline) →
    ∃ d q, exec .tick s = .next (
      if x.state = .opened ∧ x.ackPending = true then
        { s.setEp e { x with ackPending := false, ackTimer := ⟨false, d, q⟩ } with
          now := s.now + 1
          txQueue := s.txQueue ++ [frameBytes e (0x80 ||| x.expectedRx.setWidth 8) []] }
      else { s.setEp e { x with ackTimer := ⟨false, d, q⟩ } with now := s.now + 1 })

/-- After a TICK no armed timer's deadline has come: every due timer fired, from every state. It rests on the number of
rounds the model gives the loop of TICK (log 10). -/
def Obligations.TickLeavesNothingDue : Prop :=
  ∀ s t : State, exec .tick s = .next t →
    t.now = s.now + 1 ∧ ∀ u : TimerRef, (timerOf t u).armed = true → t.now < (timerOf t u).deadline

/-- A TICK advances time, then fires a due timer of least (deadline, arm_seq), chosen anew after each handler, until
none is due. Of two timers that are due alone the one ahead acts first: rtx or ack, of two endpoints or of one. An
rtx timer that fails its endpoint cancels the ack timer due behind it, which then does not fire. It rests on the
number of rounds the model gives the loop of TICK (log 10). -/
def Obligations.TimersFireInOrder : Prop :=
  (∀ s : State, ∃ t, exec .tick s = .next t ∧ FiringRun { s with now := s.now + 1 } t) ∧
  (∀ (s : State) (a b : TimerRef), dueAtTick s a → dueAtTick s b → ahead s a b → noneDueBut s a b →
    1 ≤ (s.ep a.ep).rto → 1 ≤ (s.ep b.ep).rto → 1 ≤ s.cfg.rtoMax →
    ¬(a.kind = .rtx ∧ a.ep = b.ep ∧ s.cfg.maxRetries ≤ (s.ep a.ep).retryCount) →
    ∃ t, exec .tick s = .next t ∧
      t.txQueue = s.txQueue ++ timerFrames s a ++ timerFrames s b ∧
      t.output = s.output ++ timerEvents s a ++ timerEvents s b) ∧
  ∀ (s : State) (e : Byte),
    let x := s.ep e
    dueAtTick s ⟨e, .rtx⟩ → dueAtTick s ⟨e, .ack⟩ → ahead s ⟨e, .rtx⟩ ⟨e, .ack⟩ →
    noneDueBut s ⟨e, .rtx⟩ ⟨e, .ack⟩ → s.cfg.maxRetries ≤ x.retryCount →
    exec .tick s = .next { s.setEp e { x with
        state := .error .faultNoAck, awaitingUack := false, nextTx := 0, expectedRx := 0, outstanding := 0,
        rtxQueue := [], rto := s.cfg.rtoInit, retryCount := 0, rtxTimer := Timer.off, ackPending := false,
        pending := [], ackTimer := Timer.off, rxQueue := [] } with
      now := s.now + 1
      output := s.output ++ [.timeout e (x.retryCount + 1), .epState e (.error .faultNoAck)] }

/-! ## Invariants and rules of the whole block -/

/-- Every input event keeps the invariants (I1) to (I6), with the ranges of the state rules (`State.Inv`). The spec
derives this (10_state.md R55). -/
def Obligations.EveryStepKeepsInvariants : Prop :=
  ∀ s t : State, s.Inv → step s = .next t → t.Inv

/-- No condition stops the block: from every legal state, whatever the input, the step answers a next state. -/
def Obligations.NothingStopsTheBlock : Prop :=
  ∀ s : State, s.Inv → stepGoesOn s

/-- An instruction of one endpoint changes no other endpoint, unless it is a frame that raises a violation. The spec
derives this (60_exceptions.md R361). -/
def Obligations.OnlyItsEndpointChanges : Prop :=
  ∀ (i : Instr) (e a : Byte) (s t : State), instrTarget i = some e → passesDispatch i → exec i s = .next t →
    a ≠ e → t.ep a = s.ep a

/-- Who may write what (R30, R31, R33, R34, R42, R43, R180): the configuration and the input to come are written by
nothing, `now` by TICK alone, the session state by SEC_STATE alone, the deframer by RX_BYTE alone, an endpoint's
window and enc bit by its OPEN alone; and output events are only added. -/
def Obligations.WhoWritesWhat : Prop :=
  ∀ (i : Instr) (s t : State), exec i s = .next t →
    t.cfg = s.cfg ∧ t.input = s.input ∧ s.output <+: t.output ∧
    (i = .tick ∧ t.now = s.now + 1 ∨ i ≠ .tick ∧ t.now = s.now) ∧
    ((∃ v, i = .secState v ∧ t.session = v) ∨ t.session = s.session) ∧
    ((∃ b, i = .rxByte b) ∨ t.rxPhase = s.rxPhase ∧ t.rxBuf = s.rxBuf ∧ t.rxNeed = s.rxNeed) ∧
    ∀ e : Byte, (∃ w enc, i = .openEp e w enc) ∨
      (t.ep e).window = (s.ep e).window ∧ (t.ep e).encrypted = (s.ep e).encrypted

/-- No new I-frame leaves on an encrypted endpoint while the session is not Initialized: whatever happens, its
retransmit queue only loses frames from the front; and, from a legal state, a step leaves a front part of the TX
queue (TX_PULL a back part) and adds to it no I-frame of that endpoint but the stored ones. -/
def Obligations.NoEgressBeforeInitialized : Prop :=
  ∀ (i : Instr) (e : Byte) (s t : State), (s.ep e).encrypted = true → s.session ≠ .initialized →
    i ≠ .secState .initialized → exec i s = .next t →
    (t.ep e).rtxQueue <:+ (s.ep e).rtxQueue ∧
    (s.Inv → ∃ kept added, t.txQueue = kept ++ added ∧
      (kept <+: s.txQueue ∨ i = .txPull ∧ kept <:+ s.txQueue) ∧
      ∀ F ∈ added, ∀ h, headerAt F = some h → h.addr = e → kind h.control = .i →
        ∃ E ∈ (s.ep e).rtxQueue, E.frame = F)

/-- An RX queue gains a payload only from an I-frame of its endpoint that carries the expected sequence number, which
that frame then advances, or from a UI frame on endpoint 0. The spec derives this for I-frames (20_memory.md R91). -/
def Obligations.RxQueueGrowsInOrder : Prop :=
  ∀ (i : Instr) (e : Byte) (s t : State), (∀ b, i ≠ .rxByte b) → exec i s = .next t →
    (t.ep e).rxQueue <:+ (s.ep e).rxQueue ∨
    (∃ f pf A, i = .iFrame f (s.ep e).expectedRx pf A ∧ f.addr = e ∧ f.corrupt = false ∧
      (t.ep e).rxQueue = (s.ep e).rxQueue ++ [f.payload] ∧ (t.ep e).expectedRx = (s.ep e).expectedRx + 1) ∨
    ∃ f, i = .ui f ∧ f.addr = 0 ∧ e = 0 ∧ f.corrupt = false ∧
      (t.ep e).rxQueue = (s.ep e).rxQueue ++ [f.payload]

/-- The arming stamps of armed timers stay distinct and below `arm_counter`, so the order of firing is never a tie. -/
def Obligations.StampsStayDistinct : Prop :=
  ∀ s t : State, StampsDistinct s → step s = .next t → StampsDistinct t

/-- The transitions of an endpoint's state and what makes them. Closed comes only from a link reset (on endpoint 0 one
of all endpoints), from a U-Ack or a U-Reset on a Closing one, or from CLOSE of a lost or non-sticky failed one;
Open only from OPEN of a Closed, lost or non-sticky failed endpoint, Closing only from CLOSE of an Open one,
FaultNoAck only from TICK on an Open one, another Error only from FAIL; from the sticky error the only way out is to
Closed. The spec derives this (45_endpoint_cmds.md R316). -/
def Obligations.LifecycleTransitions : Prop :=
  ∀ (i : Instr) (e : Byte) (s t : State), s.Inv → exec i s = .next t →
    let st := (s.ep e).state
    let st' := (t.ep e).state
    st' ≠ st →
      (st' = .closed ∧
        ((∃ c, .linkReset c ∈ t.output.drop s.output.length ∧ (e ≠ 0 ∨ c = .host ∨ c = .violations)) ∨
          (st = .closing ∧ ∃ f, f.addr = e ∧ f.payload = [] ∧ (runsAs i s (.uack f) ∨ runsAs i s (.ureset f))) ∨
          (i = .closeEp e ∧ (st = .connectionLost ∨ ∃ x, st = .error x ∧ x ≠ .securityIncident)))) ∨
      (st' = .opened ∧ (∃ w enc, i = .openEp e w enc) ∧ st ≠ .closing ∧ st ≠ .error .securityIncident) ∨
      (st' = .closing ∧ i = .closeEp e ∧ st = .opened) ∨
      (st' = .error .faultNoAck ∧ i = .tick ∧ st = .opened) ∨
      (∃ cause, st' = .error (errorOfCause cause) ∧ i = .fail e cause ∧ st ≠ .error .securityIncident)

/-- Only a link reset leaves Error(SecurityIncident), and it leaves to Closed; in a legal state the endpoint's rtx timer
is not armed. -/
def Obligations.SecurityIncidentIsSticky : Prop :=
  ∀ (i : Instr) (e : Byte) (s t : State), (s.ep e).state = .error .securityIncident →
    (s.ep e).rtxTimer.armed = false → exec i s = .next t →
      (t.ep e).state = .error .securityIncident ∨
      ((t.ep e).state = .closed ∧ ∃ c, .linkReset c ∈ t.output.drop s.output.length)
end

