-- ==== Sys2Proof/Laws/State.lean ====
section
/-! SUPPORT. What each named update of the state leaves in each field, so that no proof unfolds a record update. -/

namespace Sys2Proof.Machine

/-! ### `setEp` -/

@[simp] theorem State.setEp_cfg (s : State) (e : Byte) (x : Endpoint) : (s.setEp e x).cfg = s.cfg := rfl
@[simp] theorem State.setEp_now (s : State) (e : Byte) (x : Endpoint) : (s.setEp e x).now = s.now := rfl
@[simp] theorem State.setEp_armCounter (s : State) (e : Byte) (x : Endpoint) : (s.setEp e x).armCounter = s.armCounter := rfl
@[simp] theorem State.setEp_rxPhase (s : State) (e : Byte) (x : Endpoint) : (s.setEp e x).rxPhase = s.rxPhase := rfl
@[simp] theorem State.setEp_rxBuf (s : State) (e : Byte) (x : Endpoint) : (s.setEp e x).rxBuf = s.rxBuf := rfl
@[simp] theorem State.setEp_rxNeed (s : State) (e : Byte) (x : Endpoint) : (s.setEp e x).rxNeed = s.rxNeed := rfl
@[simp] theorem State.setEp_session (s : State) (e : Byte) (x : Endpoint) : (s.setEp e x).session = s.session := rfl
@[simp] theorem State.setEp_txQueue (s : State) (e : Byte) (x : Endpoint) : (s.setEp e x).txQueue = s.txQueue := rfl
@[simp] theorem State.setEp_txPos (s : State) (e : Byte) (x : Endpoint) : (s.setEp e x).txPos = s.txPos := rfl
@[simp] theorem State.setEp_violHist (s : State) (e : Byte) (x : Endpoint) : (s.setEp e x).violHist = s.violHist := rfl
@[simp] theorem State.setEp_input (s : State) (e : Byte) (x : Endpoint) : (s.setEp e x).input = s.input := rfl
@[simp] theorem State.setEp_output (s : State) (e : Byte) (x : Endpoint) : (s.setEp e x).output = s.output := rfl

/-! ### `modEp` -/

@[simp] theorem State.modEp_cfg (s : State) (e : Byte) (f : Endpoint → Endpoint) : (s.modEp e f).cfg = s.cfg := rfl
@[simp] theorem State.modEp_now (s : State) (e : Byte) (f : Endpoint → Endpoint) : (s.modEp e f).now = s.now := rfl
@[simp] theorem State.modEp_armCounter (s : State) (e : Byte) (f : Endpoint → Endpoint) : (s.modEp e f).armCounter = s.armCounter := rfl
@[simp] theorem State.modEp_rxPhase (s : State) (e : Byte) (f : Endpoint → Endpoint) : (s.modEp e f).rxPhase = s.rxPhase := rfl
@[simp] theorem State.modEp_rxBuf (s : State) (e : Byte) (f : Endpoint → Endpoint) : (s.modEp e f).rxBuf = s.rxBuf := rfl
@[simp] theorem State.modEp_rxNeed (s : State) (e : Byte) (f : Endpoint → Endpoint) : (s.modEp e f).rxNeed = s.rxNeed := rfl
@[simp] theorem State.modEp_session (s : State) (e : Byte) (f : Endpoint → Endpoint) : (s.modEp e f).session = s.session := rfl
@[simp] theorem State.modEp_txQueue (s : State) (e : Byte) (f : Endpoint → Endpoint) : (s.modEp e f).txQueue = s.txQueue := rfl
@[simp] theorem State.modEp_txPos (s : State) (e : Byte) (f : Endpoint → Endpoint) : (s.modEp e f).txPos = s.txPos := rfl
@[simp] theorem State.modEp_violHist (s : State) (e : Byte) (f : Endpoint → Endpoint) : (s.modEp e f).violHist = s.violHist := rfl
@[simp] theorem State.modEp_input (s : State) (e : Byte) (f : Endpoint → Endpoint) : (s.modEp e f).input = s.input := rfl
@[simp] theorem State.modEp_output (s : State) (e : Byte) (f : Endpoint → Endpoint) : (s.modEp e f).output = s.output := rfl

/-! ### `out` -/

@[simp] theorem State.out_cfg (s : State) (ev : Event) : (s.out ev).cfg = s.cfg := rfl
@[simp] theorem State.out_now (s : State) (ev : Event) : (s.out ev).now = s.now := rfl
@[simp] theorem State.out_armCounter (s : State) (ev : Event) : (s.out ev).armCounter = s.armCounter := rfl
@[simp] theorem State.out_rxPhase (s : State) (ev : Event) : (s.out ev).rxPhase = s.rxPhase := rfl
@[simp] theorem State.out_rxBuf (s : State) (ev : Event) : (s.out ev).rxBuf = s.rxBuf := rfl
@[simp] theorem State.out_rxNeed (s : State) (ev : Event) : (s.out ev).rxNeed = s.rxNeed := rfl
@[simp] theorem State.out_session (s : State) (ev : Event) : (s.out ev).session = s.session := rfl
@[simp] theorem State.out_txQueue (s : State) (ev : Event) : (s.out ev).txQueue = s.txQueue := rfl
@[simp] theorem State.out_txPos (s : State) (ev : Event) : (s.out ev).txPos = s.txPos := rfl
@[simp] theorem State.out_violHist (s : State) (ev : Event) : (s.out ev).violHist = s.violHist := rfl
@[simp] theorem State.out_eps (s : State) (ev : Event) : (s.out ev).eps = s.eps := rfl
@[simp] theorem State.out_input (s : State) (ev : Event) : (s.out ev).input = s.input := rfl
@[simp] theorem State.out_output (s : State) (ev : Event) : (s.out ev).output = s.output ++ [ev] := rfl
@[simp] theorem State.out_ep (s : State) (ev : Event) (a : Byte) : (s.out ev).ep a = s.ep a := rfl

/-! ### `emitFrame` -/

@[simp] theorem State.emitFrame_cfg (s : State) (F : Bytes) : (s.emitFrame F).cfg = s.cfg := rfl
@[simp] theorem State.emitFrame_now (s : State) (F : Bytes) : (s.emitFrame F).now = s.now := rfl
@[simp] theorem State.emitFrame_armCounter (s : State) (F : Bytes) : (s.emitFrame F).armCounter = s.armCounter := rfl
@[simp] theorem State.emitFrame_rxPhase (s : State) (F : Bytes) : (s.emitFrame F).rxPhase = s.rxPhase := rfl
@[simp] theorem State.emitFrame_rxBuf (s : State) (F : Bytes) : (s.emitFrame F).rxBuf = s.rxBuf := rfl
@[simp] theorem State.emitFrame_rxNeed (s : State) (F : Bytes) : (s.emitFrame F).rxNeed = s.rxNeed := rfl
@[simp] theorem State.emitFrame_session (s : State) (F : Bytes) : (s.emitFrame F).session = s.session := rfl
@[simp] theorem State.emitFrame_txQueue (s : State) (F : Bytes) : (s.emitFrame F).txQueue = s.txQueue ++ [F] := rfl
@[simp] theorem State.emitFrame_txPos (s : State) (F : Bytes) : (s.emitFrame F).txPos = s.txPos := rfl
@[simp] theorem State.emitFrame_violHist (s : State) (F : Bytes) : (s.emitFrame F).violHist = s.violHist := rfl
@[simp] theorem State.emitFrame_eps (s : State) (F : Bytes) : (s.emitFrame F).eps = s.eps := rfl
@[simp] theorem State.emitFrame_input (s : State) (F : Bytes) : (s.emitFrame F).input = s.input := rfl
@[simp] theorem State.emitFrame_output (s : State) (F : Bytes) : (s.emitFrame F).output = s.output := rfl
@[simp] theorem State.emitFrame_ep (s : State) (F : Bytes) (a : Byte) : (s.emitFrame F).ep a = s.ep a := rfl

/-! ### `setTx` -/

@[simp] theorem State.setTx_cfg (s : State) (q : List Bytes) (p : Nat) : (s.setTx q p).cfg = s.cfg := rfl
@[simp] theorem State.setTx_now (s : State) (q : List Bytes) (p : Nat) : (s.setTx q p).now = s.now := rfl
@[simp] theorem State.setTx_armCounter (s : State) (q : List Bytes) (p : Nat) : (s.setTx q p).armCounter = s.armCounter := rfl
@[simp] theorem State.setTx_rxPhase (s : State) (q : List Bytes) (p : Nat) : (s.setTx q p).rxPhase = s.rxPhase := rfl
@[simp] theorem State.setTx_rxBuf (s : State) (q : List Bytes) (p : Nat) : (s.setTx q p).rxBuf = s.rxBuf := rfl
@[simp] theorem State.setTx_rxNeed (s : State) (q : List Bytes) (p : Nat) : (s.setTx q p).rxNeed = s.rxNeed := rfl
@[simp] theorem State.setTx_session (s : State) (q : List Bytes) (p : Nat) : (s.setTx q p).session = s.session := rfl
@[simp] theorem State.setTx_txQueue (s : State) (q : List Bytes) (p : Nat) : (s.setTx q p).txQueue = q := rfl
@[simp] theorem State.setTx_txPos (s : State) (q : List Bytes) (p : Nat) : (s.setTx q p).txPos = p := rfl
@[simp] theorem State.setTx_violHist (s : State) (q : List Bytes) (p : Nat) : (s.setTx q p).violHist = s.violHist := rfl
@[simp] theorem State.setTx_eps (s : State) (q : List Bytes) (p : Nat) : (s.setTx q p).eps = s.eps := rfl
@[simp] theorem State.setTx_input (s : State) (q : List Bytes) (p : Nat) : (s.setTx q p).input = s.input := rfl
@[simp] theorem State.setTx_output (s : State) (q : List Bytes) (p : Nat) : (s.setTx q p).output = s.output := rfl
@[simp] theorem State.setTx_ep (s : State) (q : List Bytes) (p : Nat) (a : Byte) : (s.setTx q p).ep a = s.ep a := rfl

/-! ### `setRx` -/

@[simp] theorem State.setRx_cfg (s : State) (ph : RxPhase) (B : Bytes) (n : Nat) : (s.setRx ph B n).cfg = s.cfg := rfl
@[simp] theorem State.setRx_now (s : State) (ph : RxPhase) (B : Bytes) (n : Nat) : (s.setRx ph B n).now = s.now := rfl
@[simp] theorem State.setRx_armCounter (s : State) (ph : RxPhase) (B : Bytes) (n : Nat) : (s.setRx ph B n).armCounter = s.armCounter := rfl
@[simp] theorem State.setRx_rxPhase (s : State) (ph : RxPhase) (B : Bytes) (n : Nat) : (s.setRx ph B n).rxPhase = ph := rfl
@[simp] theorem State.setRx_rxBuf (s : State) (ph : RxPhase) (B : Bytes) (n : Nat) : (s.setRx ph B n).rxBuf = B := rfl
@[simp] theorem State.setRx_rxNeed (s : State) (ph : RxPhase) (B : Bytes) (n : Nat) : (s.setRx ph B n).rxNeed = n := rfl
@[simp] theorem State.setRx_session (s : State) (ph : RxPhase) (B : Bytes) (n : Nat) : (s.setRx ph B n).session = s.session := rfl
@[simp] theorem State.setRx_txQueue (s : State) (ph : RxPhase) (B : Bytes) (n : Nat) : (s.setRx ph B n).txQueue = s.txQueue := rfl
@[simp] theorem State.setRx_txPos (s : State) (ph : RxPhase) (B : Bytes) (n : Nat) : (s.setRx ph B n).txPos = s.txPos := rfl
@[simp] theorem State.setRx_violHist (s : State) (ph : RxPhase) (B : Bytes) (n : Nat) : (s.setRx ph B n).violHist = s.violHist := rfl
@[simp] theorem State.setRx_eps (s : State) (ph : RxPhase) (B : Bytes) (n : Nat) : (s.setRx ph B n).eps = s.eps := rfl
@[simp] theorem State.setRx_input (s : State) (ph : RxPhase) (B : Bytes) (n : Nat) : (s.setRx ph B n).input = s.input := rfl
@[simp] theorem State.setRx_output (s : State) (ph : RxPhase) (B : Bytes) (n : Nat) : (s.setRx ph B n).output = s.output := rfl
@[simp] theorem State.setRx_ep (s : State) (ph : RxPhase) (B : Bytes) (n : Nat) (a : Byte) : (s.setRx ph B n).ep a = s.ep a := rfl

/-! ### `setViol` -/

@[simp] theorem State.setViol_cfg (s : State) (h : List Nat) : (s.setViol h).cfg = s.cfg := rfl
@[simp] theorem State.setViol_now (s : State) (h : List Nat) : (s.setViol h).now = s.now := rfl
@[simp] theorem State.setViol_armCounter (s : State) (h : List Nat) : (s.setViol h).armCounter = s.armCounter := rfl
@[simp] theorem State.setViol_rxPhase (s : State) (h : List Nat) : (s.setViol h).rxPhase = s.rxPhase := rfl
@[simp] theorem State.setViol_rxBuf (s : State) (h : List Nat) : (s.setViol h).rxBuf = s.rxBuf := rfl
@[simp] theorem State.setViol_rxNeed (s : State) (h : List Nat) : (s.setViol h).rxNeed = s.rxNeed := rfl
@[simp] theorem State.setViol_session (s : State) (h : List Nat) : (s.setViol h).session = s.session := rfl
@[simp] theorem State.setViol_txQueue (s : State) (h : List Nat) : (s.setViol h).txQueue = s.txQueue := rfl
@[simp] theorem State.setViol_txPos (s : State) (h : List Nat) : (s.setViol h).txPos = s.txPos := rfl
@[simp] theorem State.setViol_violHist (s : State) (h : List Nat) : (s.setViol h).violHist = h := rfl
@[simp] theorem State.setViol_eps (s : State) (h : List Nat) : (s.setViol h).eps = s.eps := rfl
@[simp] theorem State.setViol_input (s : State) (h : List Nat) : (s.setViol h).input = s.input := rfl
@[simp] theorem State.setViol_output (s : State) (h : List Nat) : (s.setViol h).output = s.output := rfl
@[simp] theorem State.setViol_ep (s : State) (h : List Nat) (a : Byte) : (s.setViol h).ep a = s.ep a := rfl

/-! ### `setSession` -/

@[simp] theorem State.setSession_cfg (s : State) (v : SessionState) : (s.setSession v).cfg = s.cfg := rfl
@[simp] theorem State.setSession_now (s : State) (v : SessionState) : (s.setSession v).now = s.now := rfl
@[simp] theorem State.setSession_armCounter (s : State) (v : SessionState) : (s.setSession v).armCounter = s.armCounter := rfl
@[simp] theorem State.setSession_rxPhase (s : State) (v : SessionState) : (s.setSession v).rxPhase = s.rxPhase := rfl
@[simp] theorem State.setSession_rxBuf (s : State) (v : SessionState) : (s.setSession v).rxBuf = s.rxBuf := rfl
@[simp] theorem State.setSession_rxNeed (s : State) (v : SessionState) : (s.setSession v).rxNeed = s.rxNeed := rfl
@[simp] theorem State.setSession_session (s : State) (v : SessionState) : (s.setSession v).session = v := rfl
@[simp] theorem State.setSession_txQueue (s : State) (v : SessionState) : (s.setSession v).txQueue = s.txQueue := rfl
@[simp] theorem State.setSession_txPos (s : State) (v : SessionState) : (s.setSession v).txPos = s.txPos := rfl
@[simp] theorem State.setSession_violHist (s : State) (v : SessionState) : (s.setSession v).violHist = s.violHist := rfl
@[simp] theorem State.setSession_eps (s : State) (v : SessionState) : (s.setSession v).eps = s.eps := rfl
@[simp] theorem State.setSession_input (s : State) (v : SessionState) : (s.setSession v).input = s.input := rfl
@[simp] theorem State.setSession_output (s : State) (v : SessionState) : (s.setSession v).output = s.output := rfl
@[simp] theorem State.setSession_ep (s : State) (v : SessionState) (a : Byte) : (s.setSession v).ep a = s.ep a := rfl

/-! ### `setNow` -/

@[simp] theorem State.setNow_cfg (s : State) (t : Nat) : (s.setNow t).cfg = s.cfg := rfl
@[simp] theorem State.setNow_now (s : State) (t : Nat) : (s.setNow t).now = t := rfl
@[simp] theorem State.setNow_armCounter (s : State) (t : Nat) : (s.setNow t).armCounter = s.armCounter := rfl
@[simp] theorem State.setNow_rxPhase (s : State) (t : Nat) : (s.setNow t).rxPhase = s.rxPhase := rfl
@[simp] theorem State.setNow_rxBuf (s : State) (t : Nat) : (s.setNow t).rxBuf = s.rxBuf := rfl
@[simp] theorem State.setNow_rxNeed (s : State) (t : Nat) : (s.setNow t).rxNeed = s.rxNeed := rfl
@[simp] theorem State.setNow_session (s : State) (t : Nat) : (s.setNow t).session = s.session := rfl
@[simp] theorem State.setNow_txQueue (s : State) (t : Nat) : (s.setNow t).txQueue = s.txQueue := rfl
@[simp] theorem State.setNow_txPos (s : State) (t : Nat) : (s.setNow t).txPos = s.txPos := rfl
@[simp] theorem State.setNow_violHist (s : State) (t : Nat) : (s.setNow t).violHist = s.violHist := rfl
@[simp] theorem State.setNow_eps (s : State) (t : Nat) : (s.setNow t).eps = s.eps := rfl
@[simp] theorem State.setNow_input (s : State) (t : Nat) : (s.setNow t).input = s.input := rfl
@[simp] theorem State.setNow_output (s : State) (t : Nat) : (s.setNow t).output = s.output := rfl
@[simp] theorem State.setNow_ep (s : State) (t : Nat) (a : Byte) : (s.setNow t).ep a = s.ep a := rfl

/-! ### `setArmCounter` -/

@[simp] theorem State.setArmCounter_cfg (s : State) (n : Nat) : (s.setArmCounter n).cfg = s.cfg := rfl
@[simp] theorem State.setArmCounter_now (s : State) (n : Nat) : (s.setArmCounter n).now = s.now := rfl
@[simp] theorem State.setArmCounter_armCounter (s : State) (n : Nat) : (s.setArmCounter n).armCounter = n := rfl
@[simp] theorem State.setArmCounter_rxPhase (s : State) (n : Nat) : (s.setArmCounter n).rxPhase = s.rxPhase := rfl
@[simp] theorem State.setArmCounter_rxBuf (s : State) (n : Nat) : (s.setArmCounter n).rxBuf = s.rxBuf := rfl
@[simp] theorem State.setArmCounter_rxNeed (s : State) (n : Nat) : (s.setArmCounter n).rxNeed = s.rxNeed := rfl
@[simp] theorem State.setArmCounter_session (s : State) (n : Nat) : (s.setArmCounter n).session = s.session := rfl
@[simp] theorem State.setArmCounter_txQueue (s : State) (n : Nat) : (s.setArmCounter n).txQueue = s.txQueue := rfl
@[simp] theorem State.setArmCounter_txPos (s : State) (n : Nat) : (s.setArmCounter n).txPos = s.txPos := rfl
@[simp] theorem State.setArmCounter_violHist (s : State) (n : Nat) : (s.setArmCounter n).violHist = s.violHist := rfl
@[simp] theorem State.setArmCounter_eps (s : State) (n : Nat) : (s.setArmCounter n).eps = s.eps := rfl
@[simp] theorem State.setArmCounter_input (s : State) (n : Nat) : (s.setArmCounter n).input = s.input := rfl
@[simp] theorem State.setArmCounter_output (s : State) (n : Nat) : (s.setArmCounter n).output = s.output := rfl
@[simp] theorem State.setArmCounter_ep (s : State) (n : Nat) (a : Byte) : (s.setArmCounter n).ep a = s.ep a := rfl

/-! ### `setInput` -/

@[simp] theorem State.setInput_cfg (s : State) (l : List InputEvent) : (s.setInput l).cfg = s.cfg := rfl
@[simp] theorem State.setInput_now (s : State) (l : List InputEvent) : (s.setInput l).now = s.now := rfl
@[simp] theorem State.setInput_armCounter (s : State) (l : List InputEvent) : (s.setInput l).armCounter = s.armCounter := rfl
@[simp] theorem State.setInput_rxPhase (s : State) (l : List InputEvent) : (s.setInput l).rxPhase = s.rxPhase := rfl
@[simp] theorem State.setInput_rxBuf (s : State) (l : List InputEvent) : (s.setInput l).rxBuf = s.rxBuf := rfl
@[simp] theorem State.setInput_rxNeed (s : State) (l : List InputEvent) : (s.setInput l).rxNeed = s.rxNeed := rfl
@[simp] theorem State.setInput_session (s : State) (l : List InputEvent) : (s.setInput l).session = s.session := rfl
@[simp] theorem State.setInput_txQueue (s : State) (l : List InputEvent) : (s.setInput l).txQueue = s.txQueue := rfl
@[simp] theorem State.setInput_txPos (s : State) (l : List InputEvent) : (s.setInput l).txPos = s.txPos := rfl
@[simp] theorem State.setInput_violHist (s : State) (l : List InputEvent) : (s.setInput l).violHist = s.violHist := rfl
@[simp] theorem State.setInput_eps (s : State) (l : List InputEvent) : (s.setInput l).eps = s.eps := rfl
@[simp] theorem State.setInput_input (s : State) (l : List InputEvent) : (s.setInput l).input = l := rfl
@[simp] theorem State.setInput_output (s : State) (l : List InputEvent) : (s.setInput l).output = s.output := rfl
@[simp] theorem State.setInput_ep (s : State) (l : List InputEvent) (a : Byte) : (s.setInput l).ep a = s.ep a := rfl

/-! ### Reading an endpoint record after a write -/

@[simp] theorem State.setEp_ep_self (s : State) (e : Byte) (x : Endpoint) : (s.setEp e x).ep e = x := by
  simp [State.setEp, State.ep]

theorem State.setEp_ep_of_ne (s : State) {e a : Byte} (x : Endpoint) (h : a ≠ e) : (s.setEp e x).ep a = s.ep a := by
  have h' : e.toNat ≠ a.toNat := fun hh => h (BitVec.eq_of_toNat_eq hh.symm)
  simp [State.setEp, State.ep, h']

@[simp] theorem State.modEp_ep_self (s : State) (e : Byte) (f : Endpoint → Endpoint) :
    (s.modEp e f).ep e = f (s.ep e) := State.setEp_ep_self s e _

theorem State.modEp_ep_of_ne (s : State) {e a : Byte} (f : Endpoint → Endpoint) (h : a ≠ e) :
    (s.modEp e f).ep a = s.ep a := State.setEp_ep_of_ne s _ h

/-- Reading any record after one record was rewritten. -/
theorem State.modEp_ep (s : State) (e a : Byte) (f : Endpoint → Endpoint) :
    (s.modEp e f).ep a = if a = e then f (s.ep e) else s.ep a := by
  by_cases h : a = e
  · subst h; simp
  · simp [h, State.modEp_ep_of_ne s f h]

/-- Two rewrites of one record are one. -/
@[simp] theorem State.modEp_modEp (s : State) (e : Byte) (f g : Endpoint → Endpoint) :
    (s.modEp e f).modEp e g = s.modEp e fun x => g (f x) := by
  simp [State.modEp, State.setEp, State.ep]

/-- Writing a record back as it is changes nothing. -/
theorem State.setEp_ep_eq (s : State) (e : Byte) : s.setEp e (s.ep e) = s := by
  simp [State.setEp, State.ep]

/-- States with the same records at every address have the same endpoint table. -/
theorem State.eps_ext {s t : State} (h : ∀ a, s.ep a = t.ep a) : s.eps = t.eps := by
  apply Vector.ext
  intro i hi
  have := h (BitVec.ofNat 8 i)
  simpa [State.ep, Nat.mod_eq_of_lt hi] using this

/-- The record of any endpoint after the block reset. -/
@[simp] theorem State.resetWith_ep (cfg : Config) (a : Byte) :
    (State.resetWith cfg).ep a = Endpoint.reset cfg.rtoInit := by
  simp [State.resetWith, State.ep]

end Sys2Proof.Machine
end

