-- ==== Sys2Proof/Laws/Ops.lean ====
section
/-! SUPPORT. What each shared operation of Machine/Ops.lean can do: its effect on every field, said once. -/

namespace Sys2Proof.Machine

/-! ### `armRtx` -/

@[simp] theorem armRtx_cfg (s : State) (e : Byte) (d : Nat) : (armRtx e d s).cfg = s.cfg := rfl
@[simp] theorem armRtx_now (s : State) (e : Byte) (d : Nat) : (armRtx e d s).now = s.now := rfl
@[simp] theorem armRtx_armCounter (s : State) (e : Byte) (d : Nat) : (armRtx e d s).armCounter = s.armCounter + 1 := rfl
@[simp] theorem armRtx_rxPhase (s : State) (e : Byte) (d : Nat) : (armRtx e d s).rxPhase = s.rxPhase := rfl
@[simp] theorem armRtx_rxBuf (s : State) (e : Byte) (d : Nat) : (armRtx e d s).rxBuf = s.rxBuf := rfl
@[simp] theorem armRtx_rxNeed (s : State) (e : Byte) (d : Nat) : (armRtx e d s).rxNeed = s.rxNeed := rfl
@[simp] theorem armRtx_session (s : State) (e : Byte) (d : Nat) : (armRtx e d s).session = s.session := rfl
@[simp] theorem armRtx_txQueue (s : State) (e : Byte) (d : Nat) : (armRtx e d s).txQueue = s.txQueue := rfl
@[simp] theorem armRtx_txPos (s : State) (e : Byte) (d : Nat) : (armRtx e d s).txPos = s.txPos := rfl
@[simp] theorem armRtx_violHist (s : State) (e : Byte) (d : Nat) : (armRtx e d s).violHist = s.violHist := rfl
@[simp] theorem armRtx_input (s : State) (e : Byte) (d : Nat) : (armRtx e d s).input = s.input := rfl
@[simp] theorem armRtx_output (s : State) (e : Byte) (d : Nat) : (armRtx e d s).output = s.output := rfl

/-! ### `armAck` -/

@[simp] theorem armAck_cfg (s : State) (e : Byte) (d : Nat) : (armAck e d s).cfg = s.cfg := rfl
@[simp] theorem armAck_now (s : State) (e : Byte) (d : Nat) : (armAck e d s).now = s.now := rfl
@[simp] theorem armAck_armCounter (s : State) (e : Byte) (d : Nat) : (armAck e d s).armCounter = s.armCounter + 1 := rfl
@[simp] theorem armAck_rxPhase (s : State) (e : Byte) (d : Nat) : (armAck e d s).rxPhase = s.rxPhase := rfl
@[simp] theorem armAck_rxBuf (s : State) (e : Byte) (d : Nat) : (armAck e d s).rxBuf = s.rxBuf := rfl
@[simp] theorem armAck_rxNeed (s : State) (e : Byte) (d : Nat) : (armAck e d s).rxNeed = s.rxNeed := rfl
@[simp] theorem armAck_session (s : State) (e : Byte) (d : Nat) : (armAck e d s).session = s.session := rfl
@[simp] theorem armAck_txQueue (s : State) (e : Byte) (d : Nat) : (armAck e d s).txQueue = s.txQueue := rfl
@[simp] theorem armAck_txPos (s : State) (e : Byte) (d : Nat) : (armAck e d s).txPos = s.txPos := rfl
@[simp] theorem armAck_violHist (s : State) (e : Byte) (d : Nat) : (armAck e d s).violHist = s.violHist := rfl
@[simp] theorem armAck_input (s : State) (e : Byte) (d : Nat) : (armAck e d s).input = s.input := rfl
@[simp] theorem armAck_output (s : State) (e : Byte) (d : Nat) : (armAck e d s).output = s.output := rfl

/-! ### `cancelRtx` -/

@[simp] theorem cancelRtx_cfg (s : State) (e : Byte) : (cancelRtx e s).cfg = s.cfg := rfl
@[simp] theorem cancelRtx_now (s : State) (e : Byte) : (cancelRtx e s).now = s.now := rfl
@[simp] theorem cancelRtx_armCounter (s : State) (e : Byte) : (cancelRtx e s).armCounter = s.armCounter := rfl
@[simp] theorem cancelRtx_rxPhase (s : State) (e : Byte) : (cancelRtx e s).rxPhase = s.rxPhase := rfl
@[simp] theorem cancelRtx_rxBuf (s : State) (e : Byte) : (cancelRtx e s).rxBuf = s.rxBuf := rfl
@[simp] theorem cancelRtx_rxNeed (s : State) (e : Byte) : (cancelRtx e s).rxNeed = s.rxNeed := rfl
@[simp] theorem cancelRtx_session (s : State) (e : Byte) : (cancelRtx e s).session = s.session := rfl
@[simp] theorem cancelRtx_txQueue (s : State) (e : Byte) : (cancelRtx e s).txQueue = s.txQueue := rfl
@[simp] theorem cancelRtx_txPos (s : State) (e : Byte) : (cancelRtx e s).txPos = s.txPos := rfl
@[simp] theorem cancelRtx_violHist (s : State) (e : Byte) : (cancelRtx e s).violHist = s.violHist := rfl
@[simp] theorem cancelRtx_input (s : State) (e : Byte) : (cancelRtx e s).input = s.input := rfl
@[simp] theorem cancelRtx_output (s : State) (e : Byte) : (cancelRtx e s).output = s.output := rfl

/-! ### `cancelAck` -/

@[simp] theorem cancelAck_cfg (s : State) (e : Byte) : (cancelAck e s).cfg = s.cfg := rfl
@[simp] theorem cancelAck_now (s : State) (e : Byte) : (cancelAck e s).now = s.now := rfl
@[simp] theorem cancelAck_armCounter (s : State) (e : Byte) : (cancelAck e s).armCounter = s.armCounter := rfl
@[simp] theorem cancelAck_rxPhase (s : State) (e : Byte) : (cancelAck e s).rxPhase = s.rxPhase := rfl
@[simp] theorem cancelAck_rxBuf (s : State) (e : Byte) : (cancelAck e s).rxBuf = s.rxBuf := rfl
@[simp] theorem cancelAck_rxNeed (s : State) (e : Byte) : (cancelAck e s).rxNeed = s.rxNeed := rfl
@[simp] theorem cancelAck_session (s : State) (e : Byte) : (cancelAck e s).session = s.session := rfl
@[simp] theorem cancelAck_txQueue (s : State) (e : Byte) : (cancelAck e s).txQueue = s.txQueue := rfl
@[simp] theorem cancelAck_txPos (s : State) (e : Byte) : (cancelAck e s).txPos = s.txPos := rfl
@[simp] theorem cancelAck_violHist (s : State) (e : Byte) : (cancelAck e s).violHist = s.violHist := rfl
@[simp] theorem cancelAck_input (s : State) (e : Byte) : (cancelAck e s).input = s.input := rfl
@[simp] theorem cancelAck_output (s : State) (e : Byte) : (cancelAck e s).output = s.output := rfl

/-! ### `arqFlush` -/

@[simp] theorem arqFlush_cfg (s : State) (e : Byte) : (arqFlush e s).cfg = s.cfg := rfl
@[simp] theorem arqFlush_now (s : State) (e : Byte) : (arqFlush e s).now = s.now := rfl
@[simp] theorem arqFlush_armCounter (s : State) (e : Byte) : (arqFlush e s).armCounter = s.armCounter := rfl
@[simp] theorem arqFlush_rxPhase (s : State) (e : Byte) : (arqFlush e s).rxPhase = s.rxPhase := rfl
@[simp] theorem arqFlush_rxBuf (s : State) (e : Byte) : (arqFlush e s).rxBuf = s.rxBuf := rfl
@[simp] theorem arqFlush_rxNeed (s : State) (e : Byte) : (arqFlush e s).rxNeed = s.rxNeed := rfl
@[simp] theorem arqFlush_session (s : State) (e : Byte) : (arqFlush e s).session = s.session := rfl
@[simp] theorem arqFlush_txQueue (s : State) (e : Byte) : (arqFlush e s).txQueue = s.txQueue := rfl
@[simp] theorem arqFlush_txPos (s : State) (e : Byte) : (arqFlush e s).txPos = s.txPos := rfl
@[simp] theorem arqFlush_violHist (s : State) (e : Byte) : (arqFlush e s).violHist = s.violHist := rfl
@[simp] theorem arqFlush_input (s : State) (e : Byte) : (arqFlush e s).input = s.input := rfl
@[simp] theorem arqFlush_output (s : State) (e : Byte) : (arqFlush e s).output = s.output := rfl

/-! ### `failEndpoint` -/

@[simp] theorem failEndpoint_cfg (s : State) (e : Byte) (x : ErrorKind) : (failEndpoint e x s).cfg = s.cfg := rfl
@[simp] theorem failEndpoint_now (s : State) (e : Byte) (x : ErrorKind) : (failEndpoint e x s).now = s.now := rfl
@[simp] theorem failEndpoint_armCounter (s : State) (e : Byte) (x : ErrorKind) : (failEndpoint e x s).armCounter = s.armCounter := rfl
@[simp] theorem failEndpoint_rxPhase (s : State) (e : Byte) (x : ErrorKind) : (failEndpoint e x s).rxPhase = s.rxPhase := rfl
@[simp] theorem failEndpoint_rxBuf (s : State) (e : Byte) (x : ErrorKind) : (failEndpoint e x s).rxBuf = s.rxBuf := rfl
@[simp] theorem failEndpoint_rxNeed (s : State) (e : Byte) (x : ErrorKind) : (failEndpoint e x s).rxNeed = s.rxNeed := rfl
@[simp] theorem failEndpoint_session (s : State) (e : Byte) (x : ErrorKind) : (failEndpoint e x s).session = s.session := rfl
@[simp] theorem failEndpoint_txQueue (s : State) (e : Byte) (x : ErrorKind) : (failEndpoint e x s).txQueue = s.txQueue := rfl
@[simp] theorem failEndpoint_txPos (s : State) (e : Byte) (x : ErrorKind) : (failEndpoint e x s).txPos = s.txPos := rfl
@[simp] theorem failEndpoint_violHist (s : State) (e : Byte) (x : ErrorKind) : (failEndpoint e x s).violHist = s.violHist := rfl
@[simp] theorem failEndpoint_input (s : State) (e : Byte) (x : ErrorKind) : (failEndpoint e x s).input = s.input := rfl
@[simp] theorem failEndpoint_output (s : State) (e : Byte) (x : ErrorKind) : (failEndpoint e x s).output = s.output ++ [.epState e (.error x)] := rfl

/-! ### `trimTx` -/

@[simp] theorem trimTx_cfg (s : State) : (trimTx s).cfg = s.cfg := rfl
@[simp] theorem trimTx_now (s : State) : (trimTx s).now = s.now := rfl
@[simp] theorem trimTx_armCounter (s : State) : (trimTx s).armCounter = s.armCounter := rfl
@[simp] theorem trimTx_rxPhase (s : State) : (trimTx s).rxPhase = s.rxPhase := rfl
@[simp] theorem trimTx_rxBuf (s : State) : (trimTx s).rxBuf = s.rxBuf := rfl
@[simp] theorem trimTx_rxNeed (s : State) : (trimTx s).rxNeed = s.rxNeed := rfl
@[simp] theorem trimTx_session (s : State) : (trimTx s).session = s.session := rfl
@[simp] theorem trimTx_txQueue (s : State) : (trimTx s).txQueue = if 0 < s.txPos then s.txQueue.take 1 else [] := rfl
@[simp] theorem trimTx_txPos (s : State) : (trimTx s).txPos = s.txPos := rfl
@[simp] theorem trimTx_violHist (s : State) : (trimTx s).violHist = s.violHist := rfl
@[simp] theorem trimTx_input (s : State) : (trimTx s).input = s.input := rfl
@[simp] theorem trimTx_output (s : State) : (trimTx s).output = s.output := rfl

@[simp] theorem trimTx_ep (s : State) (a : Byte) : (trimTx s).ep a = s.ep a := rfl

/-! ### The records these operations rewrite -/

theorem armRtx_ep (s : State) (e a : Byte) (d : Nat) :
    (armRtx e d s).ep a = if a = e then { s.ep e with rtxTimer := s.armedTimer d } else s.ep a := by
  simp [armRtx, State.modEp_ep]

theorem armAck_ep (s : State) (e a : Byte) (d : Nat) :
    (armAck e d s).ep a = if a = e then { s.ep e with ackTimer := s.armedTimer d } else s.ep a := by
  simp [armAck, State.modEp_ep]

theorem cancelRtx_ep (s : State) (e a : Byte) :
    (cancelRtx e s).ep a = if a = e then { s.ep e with rtxTimer := Timer.off } else s.ep a :=
  State.modEp_ep s e a _

theorem cancelAck_ep (s : State) (e a : Byte) :
    (cancelAck e s).ep a = if a = e then { s.ep e with ackTimer := Timer.off } else s.ep a :=
  State.modEp_ep s e a _

theorem arqFlush_ep (s : State) (e a : Byte) :
    (arqFlush e s).ep a = if a = e then (s.ep e).flushed s.cfg.rtoInit else s.ep a :=
  State.modEp_ep s e a _

theorem failEndpoint_ep (s : State) (e a : Byte) (x : ErrorKind) :
    (failEndpoint e x s).ep a = if a = e then (s.ep e).dropped s.cfg.rtoInit (.error x) else s.ep a := by
  simp [failEndpoint, State.modEp_ep]

/-- The armed record itself: what `arm` writes (00_scope.md R17). -/
@[simp] theorem State.armedTimer_eq (s : State) (d : Nat) :
    s.armedTimer d = { armed := true, deadline := s.now + d, armSeq := s.armCounter } := rfl

/-! ### Endpoint ids -/

/-- `first .. 255` holds exactly the ids from `first` on. -/
theorem mem_endpointsFrom (first : Nat) (e : Byte) : e ∈ endpointsFrom first ↔ first ≤ e.toNat := by
  rw [endpointsFrom, List.mem_map]
  constructor
  · rintro ⟨n, hn, rfl⟩
    obtain ⟨i, hi⟩ := List.mem_iff_getElem?.mp hn
    rw [List.getElem?_drop] at hi
    obtain ⟨h1, h2⟩ := List.getElem?_eq_some_iff.mp hi
    simp only [List.length_range, List.getElem_range] at h1 h2
    subst h2
    simp [Nat.mod_eq_of_lt h1]
  · intro h
    refine ⟨e.toNat, List.mem_iff_getElem?.mpr ⟨e.toNat - first, ?_⟩, by simp⟩
    rw [List.getElem?_drop, Nat.add_sub_cancel' h]
    exact List.getElem?_range e.isLt

theorem endpointsFrom_nodup (first : Nat) : (endpointsFrom first).Nodup := by
  have hlt : (List.range 256).Pairwise (· < ·) := List.pairwise_lt_range
  refine List.pairwise_map.mpr ((hlt.sublist (List.drop_sublist first _)).imp_of_mem ?_)
  intro a b ha hb hab h
  have ha' := List.mem_range.mp (List.mem_of_mem_drop ha)
  have hb' := List.mem_range.mp (List.mem_of_mem_drop hb)
  have := congrArg BitVec.toNat h
  simp only [BitVec.toNat_ofNat] at this
  omega

/-! ### One endpoint's part of a link reset (45_endpoint_cmds.md R310) -/

theorem linkResetEp_ep (s : State) (e a : Byte) :
    (linkResetEp s e).ep a = if a = e then (s.ep e).linkReset s.cfg.rtoInit else s.ep a := by
  unfold linkResetEp Endpoint.linkReset
  split
  · split <;> simp_all
  · simp [State.modEp_ep]

/-- The fields one endpoint's part of a link reset leaves alone. -/
theorem linkResetEp_frame (s : State) (e : Byte) :
    ∃ eps output, linkResetEp s e = { s with eps := eps, output := output } := by
  unfold linkResetEp
  split
  · exact ⟨s.eps, s.output, rfl⟩
  · exact ⟨_, _, rfl⟩

theorem linkResetEp_output (s : State) (e : Byte) :
    (linkResetEp s e).output =
      s.output ++ if (s.ep e).state = .closed then [] else [.epState e .closed, .connLost e] := by
  unfold linkResetEp
  split <;> simp

/-- The records after the loop of a link reset over distinct ids. -/
theorem foldl_linkResetEp_ep (l : List Byte) (hl : l.Nodup) (s : State) (a : Byte) :
    (l.foldl linkResetEp s).ep a = if a ∈ l then (s.ep a).linkReset s.cfg.rtoInit else s.ep a := by
  induction l generalizing s with
  | nil => simp
  | cons e l ih =>
    obtain ⟨hne, hl⟩ := List.nodup_cons.mp hl
    have hcfg : (linkResetEp s e).cfg = s.cfg := by
      obtain ⟨_, _, h⟩ := linkResetEp_frame s e
      rw [h]
    rw [List.foldl_cons, ih hl, hcfg, linkResetEp_ep]
    by_cases h : a = e
    · subst h; simp [hne]
    · simp [h]

/-- The fields the loop of a link reset leaves alone. -/
theorem foldl_linkResetEp_frame (l : List Byte) (s : State) :
    ∃ eps output, l.foldl linkResetEp s = { s with eps := eps, output := output } := by
  induction l generalizing s with
  | nil => exact ⟨s.eps, s.output, rfl⟩
  | cons e l ih =>
    obtain ⟨e1, o1, h1⟩ := linkResetEp_frame s e
    obtain ⟨e2, o2, h2⟩ := ih (linkResetEp s e)
    exact ⟨e2, o2, by rw [List.foldl_cons, h2, h1]⟩

/-- `link_reset_endpoints` in one equation: what it writes, and that it writes nothing else. -/
theorem linkResetEndpoints_frame (first : Nat) (c : ResetCause) (s : State) :
    ∃ eps output, linkResetEndpoints first c s =
      { s with
        eps := eps
        output := output ++ [.linkReset c]
        txQueue := if 0 < s.txPos then s.txQueue.take 1 else []
        violHist := [] } := by
  obtain ⟨eps, output, h⟩ := foldl_linkResetEp_frame (endpointsFrom first) s
  refine ⟨eps, output, ?_⟩
  unfold linkResetEndpoints trimTx
  rw [h]
  rfl

/-- The records after a link reset: dropped to Closed from `first` on, and untouched where Closed. -/
theorem linkResetEndpoints_ep (first : Nat) (c : ResetCause) (s : State) (a : Byte) :
    (linkResetEndpoints first c s).ep a =
      if first ≤ a.toNat then (s.ep a).linkReset s.cfg.rtoInit else s.ep a := by
  have h := foldl_linkResetEp_ep (endpointsFrom first) (endpointsFrom_nodup first) s a
  simp only [mem_endpointsFrom] at h
  rw [← h]
  rfl

/-! ### `raise ProtocolViolation` (60_exceptions.md R357) -/

/-- Everything a violation can do: the event and the history alone, or a link reset after them. -/
theorem raiseViolation_cases (r : ViolReason) (s : State) :
    (violTripped s (violHistAfter s) = false ∧
      raiseViolation r s = { s with output := s.output ++ [.violation r], violHist := violHistAfter s }) ∨
    (violTripped s (violHistAfter s) = true ∧
      raiseViolation r s = linkResetEndpoints 0 .violations
        { s with output := s.output ++ [.violation r], violHist := violHistAfter s }) := by
  unfold raiseViolation
  by_cases h : violTripped s (violHistAfter s) = true
  · exact .inr ⟨h, by simp only [h, if_true]; rfl⟩
  · simp only [Bool.not_eq_true] at h
    exact .inl ⟨h, by simp only [h]; rfl⟩

end Sys2Proof.Machine
end

