-- ==== Sys2Proof/Laws/Arq.lean ====
section
/-! SUPPORT. What the ARQ operations of Machine/Arq.lean can do: one lemma each, and the frame they share. -/

namespace Sys2Proof.Machine

/-! ### The shared frame -/

theorem TouchesOnly.refl (e : Byte) (s : State) : TouchesOnly e s s :=
  ⟨s.ep e, [], [], s.armCounter, by simp [State.setEp_ep_eq]⟩

theorem TouchesOnly.trans {e : Byte} {s t u : State} (h1 : TouchesOnly e s t) (h2 : TouchesOnly e t u) :
    TouchesOnly e s u := by
  obtain ⟨x1, q1, o1, n1, rfl⟩ := h1
  obtain ⟨x2, q2, o2, n2, rfl⟩ := h2
  exact ⟨x2, q1 ++ q2, o1 ++ o2, n2, by simp [State.setEp]⟩

theorem touches_modEp (e : Byte) (s : State) (f : Endpoint → Endpoint) : TouchesOnly e s (s.modEp e f) :=
  ⟨f (s.ep e), [], [], s.armCounter, by simp [State.modEp, State.setEp]⟩

theorem touches_out (e : Byte) (s : State) (ev : Event) : TouchesOnly e s (s.out ev) :=
  ⟨s.ep e, [], [ev], s.armCounter, by rw [State.setEp_ep_eq]; simp [State.out]⟩

theorem touches_emitFrame (e : Byte) (s : State) (F : Bytes) : TouchesOnly e s (s.emitFrame F) :=
  ⟨s.ep e, [F], [], s.armCounter, by rw [State.setEp_ep_eq]; simp [State.emitFrame]⟩

theorem touches_armRtx (e : Byte) (d : Nat) (s : State) : TouchesOnly e s (armRtx e d s) :=
  ⟨{ s.ep e with rtxTimer := s.armedTimer d }, [], [], s.armCounter + 1, by
    simp [armRtx, State.modEp, State.setEp, State.setArmCounter]⟩

theorem touches_armAck (e : Byte) (d : Nat) (s : State) : TouchesOnly e s (armAck e d s) :=
  ⟨{ s.ep e with ackTimer := s.armedTimer d }, [], [], s.armCounter + 1, by
    simp [armAck, State.modEp, State.setEp, State.setArmCounter]⟩

/-- What the shared frame says of each field. -/
theorem TouchesOnly.fields {e : Byte} {s t : State} (h : TouchesOnly e s t) :
    t.cfg = s.cfg ∧ t.now = s.now ∧ t.rxPhase = s.rxPhase ∧ t.rxBuf = s.rxBuf ∧ t.rxNeed = s.rxNeed
      ∧ t.session = s.session ∧ t.txPos = s.txPos ∧ t.violHist = s.violHist ∧ t.input = s.input
      ∧ (∀ a, a ≠ e → t.ep a = s.ep a) ∧ s.txQueue <+: t.txQueue ∧ s.output <+: t.output := by
  obtain ⟨x, q, o, n, rfl⟩ := h
  exact ⟨rfl, rfl, rfl, rfl, rfl, rfl, rfl, rfl, rfl, fun a ha => State.setEp_ep_of_ne s x ha,
    List.prefix_append _ _, List.prefix_append _ _⟩

/-! ### `note_ack_sent` (44_arq.md R262) -/

theorem noteAckSent_eq (e : Byte) (s : State) :
    noteAckSent e s = s.modEp e fun x => { x with ackPending := false, ackTimer := Timer.off } := by
  simp [noteAckSent, cancelAck]

/-! ### `send_new` (44_arq.md R257) -/

/-- The record that sending a new I-frame leaves, its timer aside (44_arq.md R257, R262). -/
def Endpoint.afterSend (F : Bytes) (now : Nat) (x : Endpoint) : Endpoint :=
  { x.sent F now with ackPending := false, ackTimer := Timer.off }

/-- `send_new` with the rtx timer running: the frame is queued and stored, and the timer keeps its deadline. -/
theorem sendNew_of_armed (e : Byte) (P : Bytes) (s : State) (h : (s.ep e).rtxTimer.armed = true) :
    sendNew e P s = (s.emitFrame (iFrameBytes s e (s.ep e).nextTx P)).modEp e
      (Endpoint.afterSend (iFrameBytes s e (s.ep e).nextTx P) s.now) := by
  simp [sendNew, sendI, noteAckSent_eq, armRtxIfIdle, h, Endpoint.sent]
  rfl

/-- `send_new` with the rtx timer idle: as before, and the timer is armed with the current RTO. -/
theorem sendNew_of_idle (e : Byte) (P : Bytes) (s : State) (h : (s.ep e).rtxTimer.armed = false) :
    sendNew e P s = armRtx e (s.ep e).rto ((s.emitFrame (iFrameBytes s e (s.ep e).nextTx P)).modEp e
      (Endpoint.afterSend (iFrameBytes s e (s.ep e).nextTx P) s.now)) := by
  simp [sendNew, sendI, noteAckSent_eq, armRtxIfIdle, h, Endpoint.sent]
  rfl

theorem sendNew_touches (e : Byte) (P : Bytes) (s : State) : TouchesOnly e s (sendNew e P s) := by
  have h := ((touches_emitFrame e s (iFrameBytes s e (s.ep e).nextTx P)).trans
    (touches_modEp e _ (Endpoint.afterSend (iFrameBytes s e (s.ep e).nextTx P) s.now)))
  cases ha : (s.ep e).rtxTimer.armed with
  | true => rw [sendNew_of_armed e P s ha]; exact h
  | false => rw [sendNew_of_idle e P s ha]; exact h.trans (touches_armRtx e _ _)

/-- The record after `send_new`, but for its rtx timer: one more stored frame, and the ack counted as sent. -/
theorem sendNew_ep (e : Byte) (P : Bytes) (s : State) :
    ∃ t, (sendNew e P s).ep e =
      { (s.ep e).afterSend (iFrameBytes s e (s.ep e).nextTx P) s.now with rtxTimer := t }
        ∧ t.armed = true ∧ ((s.ep e).rtxTimer.armed = true → t = (s.ep e).rtxTimer) := by
  cases ha : (s.ep e).rtxTimer.armed with
  | true => exact ⟨(s.ep e).rtxTimer, by rw [sendNew_of_armed e P s ha]; simp [Endpoint.afterSend, Endpoint.sent],
      ha, fun _ => rfl⟩
  | false => exact ⟨_, by rw [sendNew_of_idle e P s ha]; simp [armRtx_ep]; rfl, rfl, fun h => by cases h⟩

/-! ### `drain_pending` (44_arq.md R258) -/

/-- One round of `drain_pending`: nothing, or the oldest pending payload is sent. -/
theorem drainLoop_cases (e : Byte) (n : Nat) (s : State) :
    drainLoop e (n + 1) s = s ∧ ((s.ep e).pending = [] ∨ canSend s e = false) ∨
    ∃ P rest, (s.ep e).pending = P :: rest ∧ canSend s e = true ∧
      drainLoop e (n + 1) s = drainLoop e n
        ((sendNew e P (s.modEp e fun x => { x with pending := rest })).out (.pendingSent e (s.ep e).nextTx)) := by
  cases hp : (s.ep e).pending with
  | nil => exact .inl ⟨by simp [drainLoop, hp], .inl rfl⟩
  | cons P rest =>
    cases hc : canSend s e with
    | false => exact .inl ⟨by simp [drainLoop, hp, hc], .inr rfl⟩
    | true => exact .inr ⟨P, rest, rfl, rfl, by rw [drainLoop]; simp only [hp, hc, if_true]⟩

theorem drainLoop_touches (e : Byte) (n : Nat) (s : State) : TouchesOnly e s (drainLoop e n s) := by
  induction n generalizing s with
  | zero => exact .refl e s
  | succ n ih =>
    rcases drainLoop_cases e n s with ⟨h, _⟩ | ⟨P, rest, _, _, h⟩
    · rw [h]; exact .refl e s
    · rw [h]
      exact ((touches_modEp e s _).trans ((sendNew_touches e P _).trans (touches_out e _ _))).trans (ih _)

theorem drainPending_touches (e : Byte) (s : State) : TouchesOnly e s (drainPending e s) :=
  drainLoop_touches e _ s

/-- With nothing pending, `drain_pending` does nothing. -/
theorem drainPending_of_empty (e : Byte) (s : State) (h : (s.ep e).pending = []) : drainPending e s = s := by
  simp [drainPending, h, drainLoop]

/-- Where nothing can be sent, `drain_pending` does nothing. -/
theorem drainPending_of_blocked (e : Byte) (s : State) (h : canSend s e = false) : drainPending e s = s := by
  cases hp : (s.ep e).pending with
  | nil => exact drainPending_of_empty e s hp
  | cons P rest => simp [drainPending, hp, drainLoop, h]

/-! ### `process_ack` (44_arq.md R260) -/

/-- The rtx timer after an ack is cancelled or restarted (44_arq.md R260). -/
theorem restartRtx_cases (e : Byte) (s : State) :
    ((s.ep e).rtxQueue = [] ∧ restartRtx e s = cancelRtx e s) ∨
      ((s.ep e).rtxQueue ≠ [] ∧ restartRtx e s = armRtx e (s.ep e).rto s) := by
  unfold restartRtx
  cases (s.ep e).rtxQueue with
  | nil => exact .inl ⟨rfl, rfl⟩
  | cons E l => exact .inr ⟨by simp, rfl⟩

theorem restartRtx_touches (e : Byte) (s : State) : TouchesOnly e s (restartRtx e s) := by
  rcases restartRtx_cases e s with ⟨_, h⟩ | ⟨_, h⟩ <;> rw [h]
  · exact touches_modEp e s _
  · exact touches_armRtx e _ s

/-- Everything an acknowledgement can do: AckInvalid, nothing, or the removal of the acknowledged frames followed by
the drain. -/
theorem processAck_cases (e : Byte) (A : Seq) (s : State) :
    (ackValid (s.ep e) A = false ∧ processAck e A s = s.out (.ackInvalid e A)) ∨
    (ackValid (s.ep e) A = true ∧ ackCount (s.ep e) A = 0 ∧ processAck e A s = s) ∨
    (ackValid (s.ep e) A = true ∧ ackCount (s.ep e) A ≠ 0 ∧
      processAck e A s = drainPending e
        ((restartRtx e (s.modEp e (Endpoint.acked s.cfg.rtoInit (ackCount (s.ep e) A)))).out
          (.acked e (ackCount (s.ep e) A)))) := by
  unfold processAck
  cases ackValid (s.ep e) A with
  | false => exact .inl ⟨rfl, rfl⟩
  | true =>
    by_cases h : ackCount (s.ep e) A = 0
    · exact .inr (.inl ⟨rfl, h, by simp [h]⟩)
    · exact .inr (.inr ⟨rfl, h, by simp [h]⟩)

theorem processAck_touches (e : Byte) (A : Seq) (s : State) : TouchesOnly e s (processAck e A s) := by
  rcases processAck_cases e A s with ⟨_, h⟩ | ⟨_, _, h⟩ | ⟨_, _, h⟩ <;> rw [h]
  · exact touches_out e s _
  · exact .refl e s
  · exact (((touches_modEp e s _).trans (restartRtx_touches e _)).trans (touches_out e _ _)).trans
      (drainPending_touches e _)

/-! ### Retransmission (44_arq.md R264, R265, R270) -/

/-- Retransmitting a list of entries: their frames in order on the TX queue, and an event for each. -/
theorem foldl_retransmit (e : Byte) (l : List RtxEntry) (s : State) :
    l.foldl (retransmit e) s =
      { s with
        txQueue := s.txQueue ++ l.map (·.frame)
        output := s.output ++ l.map fun E => .retransmit e E.seq } := by
  induction l generalizing s with
  | nil => simp
  | cons E l ih => rw [List.foldl_cons, ih]; simp [retransmit, State.emitFrame, State.out]

theorem foldl_retransmit_touches (e : Byte) (l : List RtxEntry) (s : State) :
    TouchesOnly e s (l.foldl (retransmit e) s) := by
  induction l generalizing s with
  | nil => exact .refl e s
  | cons E l ih => exact ((touches_emitFrame e s _).trans (touches_out e _ _)).trans (ih _)

theorem rtxFrom_touches (e : Byte) (s : State) : TouchesOnly e s (rtxFrom e s) := by
  unfold rtxFrom
  split
  · exact .refl e s
  · exact (foldl_retransmit_touches e _ s).trans (touches_armRtx e _ _)

theorem failEndpoint_touches (e : Byte) (x : ErrorKind) (s : State) : TouchesOnly e s (failEndpoint e x s) :=
  (touches_modEp e s _).trans (touches_out e _ _)

theorem resendOldest_touches (e : Byte) (s : State) : TouchesOnly e s (resendOldest e s) :=
  ((touches_modEp e s _).trans (foldl_retransmit_touches e _ _)).trans (touches_armRtx e _ _)

/-- Everything an expiry of the rtx timer can do: the endpoint fails, or the oldest frame is sent again. -/
theorem rtxExpire_cases (e : Byte) (s : State) :
    (s.cfg.maxRetries < (s.ep e).retryCount + 1 ∧
      rtxExpire e s = failEndpoint e .faultNoAck
        ((s.modEp e Endpoint.timedOut).out (.timeout e ((s.ep e).retryCount + 1)))) ∨
    ((s.ep e).retryCount + 1 ≤ s.cfg.maxRetries ∧
      rtxExpire e s = resendOldest e
        ((s.modEp e Endpoint.timedOut).out (.timeout e ((s.ep e).retryCount + 1)))) := by
  unfold rtxExpire
  by_cases h : s.cfg.maxRetries < (s.ep e).retryCount + 1
  · exact .inl ⟨h, by simp [h]⟩
  · exact .inr ⟨Nat.le_of_not_lt h, by simp [h]⟩

theorem rtxExpire_touches (e : Byte) (s : State) : TouchesOnly e s (rtxExpire e s) := by
  rcases rtxExpire_cases e s with ⟨_, h⟩ | ⟨_, h⟩ <;> rw [h]
  · exact ((touches_modEp e s _).trans (touches_out e _ _)).trans (failEndpoint_touches e _ _)
  · exact ((touches_modEp e s _).trans (touches_out e _ _)).trans (resendOldest_touches e _)

/-- Everything an expiry of the ack timer can do: an RR if an ack is owed, else nothing. -/
theorem ackExpire_cases (e : Byte) (s : State) :
    ((s.ep e).state = .opened ∧ (s.ep e).ackPending = true ∧ ackExpire e s = noteAckSent e (sendRR e s)) ∨
    (¬((s.ep e).state = .opened ∧ (s.ep e).ackPending = true) ∧ ackExpire e s = s) := by
  unfold ackExpire
  by_cases h : (s.ep e).state = .opened ∧ (s.ep e).ackPending = true
  · exact .inl ⟨h.1, h.2, by simp [h]⟩
  · exact .inr ⟨h, by simp [h]⟩

theorem ackExpire_touches (e : Byte) (s : State) : TouchesOnly e s (ackExpire e s) := by
  rcases ackExpire_cases e s with ⟨_, _, h⟩ | ⟨_, h⟩ <;> rw [h]
  · rw [noteAckSent_eq]; exact (touches_emitFrame e s _).trans (touches_modEp e _ _)
  · exact .refl e s

/-- A timer's handler touches its own endpoint only. -/
theorem fireTimer_touches (t : TimerRef) (s : State) : TouchesOnly t.ep s (fireTimer t s) := by
  unfold fireTimer
  cases t.kind with
  | rtx => exact (touches_modEp t.ep s _).trans (rtxExpire_touches t.ep _)
  | ack => exact (touches_modEp t.ep s _).trans (ackExpire_touches t.ep _)

end Sys2Proof.Machine
end

