-- ==== Sys2Proof/Laws/Frames.lean ====
section
/-! SUPPORT. What the frame layout looks like: its length and its header (30_encoding.md R100, R101). -/

namespace Sys2Proof

open Machine

/-- A little-endian field reads back as it was written (20_memory.md R82). -/
theorem rdLe16_of_le16 (x : Word) : rdLe16 (x.setWidth 8) ((x >>> 8).setWidth 8) = x := by
  apply BitVec.eq_of_getLsbD_eq
  intro i hi
  simp only [rdLe16, BitVec.getLsbD_or, BitVec.getLsbD_setWidth, BitVec.getLsbD_shiftLeft, BitVec.getLsbD_ushiftRight]
  by_cases h : i < 8
  · simp [h, hi]
  · have h8 : i - 8 < 8 := by omega
    have h16 : 8 + (i - 8) = i := by omega
    simp [h, hi, h8, h16]
    omega

theorem le16_eq (x : Word) : le16 x = [x.setWidth 8, (x >>> 8).setWidth 8] := rfl

@[simp] theorem le16_length (x : Word) : (le16 x).length = 2 := rfl

@[simp] theorem headerPrefix_length (a c : Byte) (L : Nat) : (headerPrefix a c L).length = 5 := rfl

/-- The header of the layout, with the HCS over its first five bytes. -/
def headerOf (a c : Byte) (L : Nat) : Header where
  flag := flagByte
  addr := a
  lenLo := (BitVec.ofNat 16 L).setWidth 8
  lenHi := (BitVec.ofNat 16 L >>> 8).setWidth 8
  control := c
  hcsLo := (crc16 (headerPrefix a c L)).setWidth 8
  hcsHi := (crc16 (headerPrefix a c L) >>> 8).setWidth 8

/-- What `headerAt` finds at the front of a header and anything after it. -/
theorem headerAt_layout (a c : Byte) (L : Nat) (rest : Bytes) :
    headerAt (headerPrefix a c L ++ hcsGen (headerPrefix a c L) ++ rest) = some (headerOf a c L) := rfl

@[simp] theorem headerOf_length (a c : Byte) (L : Nat) (hL : L ≤ 65535) : (headerOf a c L).length = L := by
  simp only [Header.length, headerOf, rdLe16_of_le16, BitVec.toNat_ofNat]
  omega

/-- A frame is 7 bytes, or 7 + L + 2 with a payload (30_encoding.md R101). -/
theorem frameBytes_length (a c : Byte) (P : Bytes) :
    (frameBytes a c P).length = if P = [] then 7 else 7 + P.length + 2 := by
  cases P with
  | nil => rfl
  | cons b P =>
    simp only [frameBytes, hcsGen, fcsGen, List.isEmpty_cons, Bool.false_eq_true, if_false, List.length_append,
      headerPrefix_length, le16_length, List.length_cons, reduceCtorEq]
    omega

theorem headerAt_frameBytes (a c : Byte) (P : Bytes) :
    headerAt (frameBytes a c P) = some (headerOf a c P.length) := headerAt_layout a c P.length _

/-- `encode` succeeds exactly up to MTU, with the layout's bytes (41_framer_tx.md R160). -/
theorem encodeFrame_eq (mtu : Nat) (a c : Byte) (P : Bytes) :
    encodeFrame mtu a c P = if P.length ≤ mtu then some (frameBytes a c P) else none := by
  unfold encodeFrame
  by_cases h : P.length ≤ mtu
  · simp [h, Nat.not_lt.mpr h]
  · simp [h, Nat.lt_of_not_le h]

end Sys2Proof
end

