-- ==== Sys2Proof/Laws/PerInstr.lean ====
section
/-! SUPPORT. One statement about every instruction as syntax: its encoding carries the fixed bits of its row of
spec/opcode_table.json. -/

namespace Sys2Proof.Laws

open Machine

/-- The bits of an encoding that its opcode-table row numbers: the command word, or the control byte of a frame. -/
def tableBits : Encoded → Nat
  | .command w _ => w.toNat
  | .frame bs => ((headerAt bs).map fun h => h.control.toNat).getD 0

/-- The mask and match of an instruction's row in spec/opcode_table.json. -/
def tableRow : Instr → Nat × Nat
  | .iFrame _ _ _ _ => (0x80, 0x00)
  | .rr _ _ _ => (0xF0, 0x80)
  | .rej _ _ _ => (0xF0, 0x90)
  | .ui _ => (0xFF, 0xC0)
  | .upf _ => (0xFF, 0xC4)
  | .uack _ => (0xFF, 0xCE)
  | .ureset _ => (0xFF, 0xF1)
  | .openEp _ _ _ => (0xF000, 0x1000)
  | .closeEp _ => (0xFF00, 0x2000)
  | .write _ _ => (0xFF00, 0x3000)
  | .uiSend _ _ => (0xFF00, 0x4000)
  | .rxPop _ => (0xFF00, 0x5000)
  | .status _ => (0xFF00, 0x6000)
  | .fail _ _ => (0xFC00, 0x7000)
  | .linkReset => (0xFFFF, 0x8000)
  | .secState _ => (0xFCFF, 0x9000)
  | .rxByte _ => (0xFF00, 0xB000)
  | .txPull => (0xFFFF, 0xC000)
  | .tick => (0xFFFF, 0xD000)

/-- The encoding of the instruction has its row's fixed bits. -/
def FixedBits.Statement (i : Instr) : Prop := tableBits (encode i) &&& (tableRow i).1 = (tableRow i).2

/-- The control byte of a received frame's bytes is the one it was built with. -/
theorem tableBits_frame (f : RxFrame) (c : Byte) : tableBits (.frame (f.bytes c)) = c.toNat := by
  unfold RxFrame.bytes
  split <;> rfl

/-- Masking a command word whose operand ranges over the bytes. -/
theorem commandWord_and (op arg : BitVec 4) (mask m : Nat)
    (h : ∀ e : Byte, (commandWord op arg e).toNat &&& mask = m) (e : Byte) (P : Bytes) :
    tableBits (.command (commandWord op arg e) P) &&& mask = m := h e

namespace FixedBits

theorem iFrame (f : RxFrame) (seq : Seq) (pf : Bool) (ack : Seq) : Statement (.iFrame f seq pf ack) := by
  have h : ∀ (seq ack : Seq) (pf : Bool), (ctrlI seq ack pf).toNat &&& 0x80 = 0 := by decide
  exact (congrArg (· &&& 0x80) (tableBits_frame f _)).trans (h seq ack pf)

theorem rr (f : RxFrame) (pf : Bool) (ack : Seq) : Statement (.rr f pf ack) := by
  have h : ∀ (ack : Seq) (pf : Bool), (ctrlS functionRR ack pf).toNat &&& 0xF0 = 0x80 := by decide
  exact (congrArg (· &&& 0xF0) (tableBits_frame f _)).trans (h ack pf)

theorem rej (f : RxFrame) (pf : Bool) (ack : Seq) : Statement (.rej f pf ack) := by
  have h : ∀ (ack : Seq) (pf : Bool), (ctrlS functionREJ ack pf).toNat &&& 0xF0 = 0x90 := by decide
  exact (congrArg (· &&& 0xF0) (tableBits_frame f _)).trans (h ack pf)

theorem ui (f : RxFrame) : Statement (.ui f) := congrArg (· &&& 0xFF) (tableBits_frame f _)

theorem upf (f : RxFrame) : Statement (.upf f) := congrArg (· &&& 0xFF) (tableBits_frame f _)

theorem uack (f : RxFrame) : Statement (.uack f) := congrArg (· &&& 0xFF) (tableBits_frame f _)

theorem ureset (f : RxFrame) : Statement (.ureset f) := congrArg (· &&& 0xFF) (tableBits_frame f _)

theorem openEp (e : Byte) (window : BitVec 3) (enc : Bool) : Statement (.openEp e window enc) := by
  have h : ∀ (arg : BitVec 4) (e : Byte), (commandWord 0x1 arg e).toNat &&& 0xF000 = 0x1000 := by decide +kernel
  exact h _ e

theorem closeEp (e : Byte) : Statement (.closeEp e) := commandWord_and 0x2 0 0xFF00 0x2000 (by decide +kernel) e _

theorem write (e : Byte) (P : Bytes) : Statement (.write e P) := commandWord_and 0x3 0 0xFF00 0x3000 (by decide +kernel) e _

theorem uiSend (e : Byte) (P : Bytes) : Statement (.uiSend e P) := commandWord_and 0x4 0 0xFF00 0x4000 (by decide +kernel) e _

theorem rxPop (e : Byte) : Statement (.rxPop e) := commandWord_and 0x5 0 0xFF00 0x5000 (by decide +kernel) e _

theorem status (e : Byte) : Statement (.status e) := commandWord_and 0x6 0 0xFF00 0x6000 (by decide +kernel) e _

theorem fail (e : Byte) (cause : FailCause) : Statement (.fail e cause) := by
  cases cause with
  | remoteError => exact commandWord_and 0x7 0 0xFC00 0x7000 (by decide +kernel) e _
  | securityIncident => exact commandWord_and 0x7 1 0xFC00 0x7000 (by decide +kernel) e _
  | destUnreach => exact commandWord_and 0x7 2 0xFC00 0x7000 (by decide +kernel) e _

theorem linkReset : Statement .linkReset := by unfold Statement; decide +kernel

theorem secState (session : SessionState) : Statement (.secState session) := by
  cases session <;> (unfold Statement; decide +kernel)

theorem rxByte (b : Byte) : Statement (.rxByte b) := commandWord_and 0xB 0 0xFF00 0xB000 (by decide +kernel) b _

theorem txPull : Statement .txPull := by unfold Statement; decide +kernel

theorem tick : Statement .tick := by unfold Statement; decide +kernel

end FixedBits

end Sys2Proof.Laws
end

