-- ==== Sys2Proof/Laws/Receive.lean ====
section
/-! SUPPORT. What the receive rules and the deframer's helpers can do (42_deframer_rx.md, 43_frame_dispatch.md). -/

namespace Sys2Proof.Machine

/-- `rx_restart` leaves the deframer in HUNT, and nothing else changed (42_deframer_rx.md R187). -/
theorem rxRestart_eq (s : State) : rxRestart s = { s with rxPhase := .hunt, rxBuf := [], rxNeed := 0 } := rfl

theorem rxInOrder_touches (e : Byte) (P : Bytes) (s : State) : TouchesOnly e s (rxInOrder e P s) := by
  unfold rxInOrder
  split
  · exact touches_out e s _
  · dsimp only
    have h := ((touches_modEp e s fun x => { x with rxQueue := x.rxQueue ++ [P] }).trans
      (touches_out e _ (.delivered e (some (s.ep e).expectedRx) P.length))).trans
      (touches_modEp e _ fun x => { x with expectedRx := x.expectedRx + 1, ackPending := true })
    split
    · exact h
    · exact h.trans (touches_armAck e _ _)

theorem rxClassified_touches (e : Byte) (n : Seq) (P : Bytes) (corrupt : Bool) (s : State) :
    TouchesOnly e s (rxClassified e n P corrupt s) := by
  have hS : ∀ (ev : Event) (F : Bytes), TouchesOnly e s (noteAckSent e ((s.out ev).emitFrame F)) := fun ev F => by
    rw [noteAckSent_eq]
    exact ((touches_out e s ev).trans (touches_emitFrame e _ F)).trans (touches_modEp e _ _)
  unfold rxClassified
  split
  · exact hS _ _
  · split
    · exact rxInOrder_touches e P s
    · exact hS _ _
    · exact hS _ _

theorem rxI_touches (e : Byte) (n A : Seq) (P : Bytes) (corrupt : Bool) (s : State) :
    TouchesOnly e s (rxI e n A P corrupt s) := by
  unfold rxI
  split
  · exact touches_out e s _
  · exact (rxClassified_touches e n P corrupt s).trans (processAck_touches e A _)

theorem rxRR_touches (e : Byte) (A : Seq) (s : State) : TouchesOnly e s (rxRR e A s) := by
  unfold rxRR
  split
  · exact touches_out e s _
  · exact processAck_touches e A s

theorem rxREJ_touches (e : Byte) (A : Seq) (s : State) : TouchesOnly e s (rxREJ e A s) := by
  unfold rxREJ
  split
  · exact touches_out e s _
  · split
    · exact processAck_touches e A s
    · exact (processAck_touches e A s).trans (rtxFrom_touches e _)

theorem rxUI_touches (P : Bytes) (corrupt : Bool) (s : State) : TouchesOnly 0 s (rxUI P corrupt s) := by
  unfold rxUI
  split
  · exact touches_out 0 s _
  · split
    · exact touches_out 0 s _
    · split
      · exact touches_out 0 s _
      · exact (touches_modEp 0 s _).trans (touches_out 0 _ _)

theorem peerResetEndpoint_touches (e : Byte) (s : State) : TouchesOnly e s (peerResetEndpoint e s) := by
  unfold peerResetEndpoint
  split
  · exact ((touches_modEp e s _).trans (touches_modEp e _ _)).trans (touches_out e _ _)
  · exact ((touches_modEp e s _).trans (touches_modEp e _ _)).trans (touches_out e _ _)
  all_goals exact .refl e s

theorem rxUACK_touches (e : Byte) (s : State) : TouchesOnly e s (rxUACK e s) := by
  unfold rxUACK
  split
  · exact ((touches_modEp e s _).trans (touches_out e _ _)).trans (drainPending_touches e _)
  · split
    · exact (touches_modEp e s _).trans (touches_out e _ _)
    · exact touches_out e s _

/-- A received U-Reset at a non-zero address touches that endpoint only. -/
theorem rxURESET_touches (e : Byte) (he : e ≠ 0) (s : State) : TouchesOnly e s (rxURESET e s) := by
  unfold rxURESET
  rw [if_neg he]
  exact (touches_emitFrame e s _).trans (peerResetEndpoint_touches e _)

end Sys2Proof.Machine
end

