-- ==== Sys2Proof/Laws/Timers.lean ====
section
/-! SUPPORT. What TICK's choice of the next due timer means (44_arq.md R280, R281). -/

namespace Sys2Proof.Machine

/-- The ids paired with the records are exactly the endpoints. -/
theorem mem_zip_eps (s : State) (e : Byte) (x : Endpoint) :
    (e, x) ∈ (endpointsFrom 0).zip s.eps.toList ↔ x = s.ep e := by
  rw [List.mem_iff_getElem?]
  have hids : ∀ i, (endpointsFrom 0)[i]? = if i < 256 then some (BitVec.ofNat 8 i) else none := by
    intro i
    by_cases hi : i < 256
    · simp [endpointsFrom, hi]
    · simp [endpointsFrom, hi]
  constructor
  · rintro ⟨i, hi⟩
    rw [List.getElem?_zip_eq_some] at hi
    obtain ⟨h1, h2⟩ := hi
    rw [hids] at h1
    split at h1
    · rename_i hlt
      have he : e = BitVec.ofNat 8 i := (Option.some.inj h1).symm
      obtain ⟨h3, h4⟩ := List.getElem?_eq_some_iff.mp h2
      have h4' : s.eps.toList[i] = x := h4
      rw [← h4', he]
      simp [State.ep, Nat.mod_eq_of_lt hlt]
    · cases h1
  · rintro rfl
    refine ⟨e.toNat, List.getElem?_zip_eq_some.mpr ⟨?_, ?_⟩⟩
    · rw [hids]; simp [e.isLt]
    · have h : e.toNat < s.eps.toList.length := by simpa using e.isLt
      rw [List.getElem?_eq_getElem h]
      simp [State.ep]

/-- The entries TICK looks through are the timers with their records. -/
theorem mem_timerEntries (s : State) (t : TimerRef) (T : Timer) :
    (t, T) ∈ timerEntries s ↔ T = timerOf s t := by
  obtain ⟨e, k⟩ := t
  simp only [timerEntries, List.mem_flatMap, Prod.exists]
  constructor
  · rintro ⟨a, x, hm, hT⟩
    rw [mem_zip_eps] at hm
    subst hm
    simp only [timersOfEp, List.mem_cons, Prod.mk.injEq, TimerRef.mk.injEq, List.not_mem_nil, or_false] at hT
    rcases hT with ⟨⟨rfl, rfl⟩, rfl⟩ | ⟨⟨rfl, rfl⟩, rfl⟩ <;> rfl
  · rintro rfl
    refine ⟨e, s.ep e, (mem_zip_eps s e _).mpr rfl, ?_⟩
    cases k <;> simp [timersOfEp, timerOf]

/-- Firing earlier is a strict order on timers. -/
theorem firesBefore_irrefl (a : Timer) : firesBefore a a = false := by simp [firesBefore]

theorem firesBefore_trans {a b c : Timer} (h1 : firesBefore a b = true) (h2 : firesBefore b c = true) :
    firesBefore a c = true := by
  simp only [firesBefore, Bool.or_eq_true, Bool.and_eq_true, decide_eq_true_eq, beq_iff_eq] at *
  omega

theorem not_firesBefore_trans {a b c : Timer} (h1 : firesBefore b a = false) (h2 : firesBefore c b = false) :
    firesBefore c a = false := by
  simp only [firesBefore, Bool.or_eq_false_iff, Bool.and_eq_false_iff, decide_eq_false_iff_not, beq_eq_false_iff_ne]
    at *
  omega

/-- The scan keeps the earliest due entry it has met. -/
theorem foldl_betterDue (now : Nat) (l : List (TimerRef × Timer)) (best : Option (TimerRef × Timer))
    (hb : ∀ b, best = some b → isDue now b.2 = true) :
    match l.foldl (betterDue now) best with
    | none => best = none ∧ ∀ p ∈ l, isDue now p.2 = false
    | some q => isDue now q.2 = true ∧ (best = some q ∨ q ∈ l) ∧
        (∀ b, best = some b → firesBefore b.2 q.2 = false) ∧
        ∀ p ∈ l, isDue now p.2 = true → firesBefore p.2 q.2 = false := by
  induction l generalizing best with
  | nil =>
    cases best with
    | none => simp
    | some b => simpa [firesBefore_irrefl] using hb b rfl
  | cons p l ih =>
    rw [List.foldl_cons]
    cases hp : isDue now p.2 with
    | false =>
      have hstep : betterDue now best p = best := by simp [betterDue, hp]
      rw [hstep]
      have := ih best hb
      revert this
      cases l.foldl (betterDue now) best with
      | none => rintro ⟨h1, h2⟩; exact ⟨h1, by simpa [hp] using h2⟩
      | some q =>
        rintro ⟨h1, h2, h3, h4⟩
        exact ⟨h1, h2.imp id (List.mem_cons_of_mem p), h3, by simpa [hp] using h4⟩
    | true =>
      obtain ⟨r, hr, hrp, hrb, hrm⟩ : ∃ r, betterDue now best p = some r ∧ firesBefore p.2 r.2 = false ∧
          (∀ b, best = some b → firesBefore b.2 r.2 = false) ∧ (best = some r ∨ r = p) := by
        cases best with
        | none => exact ⟨p, by simp [betterDue, hp], firesBefore_irrefl _, by simp, .inr rfl⟩
        | some b =>
          cases hf : firesBefore p.2 b.2 with
          | true =>
            refine ⟨p, by simp [betterDue, hp, hf], firesBefore_irrefl _, ?_, .inr rfl⟩
            rintro c ⟨⟩
            cases hc : firesBefore b.2 p.2 with
            | false => rfl
            | true => rw [← firesBefore_irrefl p.2]; exact (firesBefore_trans hf hc).symm
          | false => exact ⟨b, by simp [betterDue, hp, hf], hf, by simp [firesBefore_irrefl], .inl rfl⟩
      have hrd : isDue now r.2 = true := by
        rcases hrm with h | h
        · exact hb r h
        · rw [h]; exact hp
      rw [hr]
      have := ih (some r) (by rintro b ⟨⟩; exact hrd)
      revert this
      cases l.foldl (betterDue now) (some r) with
      | none => rintro ⟨h1, _⟩; cases h1
      | some q =>
        rintro ⟨h1, h2, h3, h4⟩
        have hq := h3 r rfl
        refine ⟨h1, ?_, fun b hbb => not_firesBefore_trans hq (hrb b hbb), ?_⟩
        · rcases h2 with h2 | h2
          · cases h2
            exact hrm.imp id fun h => by rw [h]; exact List.mem_cons_self
          · exact .inr (List.mem_cons_of_mem p h2)
        · intro u hu hud
          rcases List.mem_cons.mp hu with rfl | hu
          · exact not_firesBefore_trans hq hrp
          · exact h4 u hu hud

/-- `nextDue` answers a due timer that no due timer fires before, or none if no timer is due. -/
theorem nextDue_spec (s : State) :
    match nextDue s with
    | none => ∀ t, isDue s.now (timerOf s t) = false
    | some t => isDue s.now (timerOf s t) = true ∧
        ∀ u, isDue s.now (timerOf s u) = true → firesBefore (timerOf s u) (timerOf s t) = false := by
  have h := foldl_betterDue s.now (timerEntries s) none (by simp)
  unfold nextDue
  revert h
  cases (timerEntries s).foldl (betterDue s.now) none with
  | none => rintro ⟨-, h⟩; exact fun t => h (t, _) ((mem_timerEntries s t _).mpr rfl)
  | some q =>
    obtain ⟨t, T⟩ := q
    rintro ⟨h1, h2, -, h4⟩
    have hT : T = timerOf s t := (mem_timerEntries s t T).mp (h2.resolve_left (by simp))
    subst hT
    exact ⟨h1, fun u hu => h4 (u, _) ((mem_timerEntries s u _).mpr rfl) hu⟩

/-- The timer `nextDue` answers fires next. -/
theorem firesNext_of_nextDue {s : State} {t : TimerRef} (h : nextDue s = some t) : firesNext s t := by
  have hs := nextDue_spec s
  rw [h] at hs
  refine ⟨hs.1, fun u hu => ?_⟩
  have := hs.2 u hu
  simp only [firesBefore, Bool.or_eq_false_iff, Bool.and_eq_false_iff, decide_eq_false_iff_not, beq_eq_false_iff_ne]
    at this
  omega

/-- TICK's loop stops where no timer is due. -/
theorem fireDue_of_none (n : Nat) (s : State) (h : nextDue s = none) : fireDue n s = s := by
  cases n with
  | zero => rfl
  | succ n => simp [fireDue, h]

/-- One round of TICK's loop. -/
theorem fireDue_of_some (n : Nat) (s : State) (t : TimerRef) (h : nextDue s = some t) :
    fireDue (n + 1) s = fireDue n (fireTimer t s) := by
  simp [fireDue, h]

end Sys2Proof.Machine
end

