-- ==== Sys2Proof/Machine/Assembler.lean ====
section
/-! DEFINITION. The spec's notation of frames and of programs as input events (30_encoding.md R124 to R126). The lines
of R125 are terms of `Instr`; no instruction of the block is defined here. -/

namespace Sys2Proof.Machine

/-! ## Frames (30_encoding.md R124) -/

/-- `I(e, seq=n, ack=a, P)`, with pf = 1. -/
def noteI (e : Byte) (n a : Seq) (P : Bytes) : Bytes := frameBytes e (ctrlI n a true) P

/-- `RR(e, ack=a)`, with pf = 0. -/
def noteRR (e : Byte) (a : Seq) : Bytes := frameBytes e (ctrlS functionRR a false) []

/-- `REJ(e, ack=a)`, with pf = 0. -/
def noteREJ (e : Byte) (a : Seq) : Bytes := frameBytes e (ctrlS functionREJ a false) []

/-- `UI(e, P)`. -/
def noteUI (e : Byte) (P : Bytes) : Bytes := frameBytes e (ctrlU utypeUI) P

/-- `URESET(e)`. -/
def noteURESET (e : Byte) : Bytes := frameBytes e (ctrlU utypeURESET) []

/-- `UACK(e)`. -/
def noteUACK (e : Byte) : Bytes := frameBytes e (ctrlU utypeUACK) []

/-- `UPF(e)`. -/
def noteUPF (e : Byte) : Bytes := frameBytes e (ctrlU utypeUPF) []

/-! ## Lines (30_encoding.md R125, R126) -/

/-- The input events of a line: its command word (30_encoding.md R125); none for a frame instruction, which is no
command word and comes as bytes. -/
def lineInput (i : Instr) : List InputEvent :=
  match encode i with
  | .command w P => [{ word := w, payload := P }]
  | .frame _ => []

/-- The pseudo-operations (30_encoding.md R126). -/
inductive PseudoOp where
  /-- `RXFRAME` and `RXHEX`: the bytes of a frame, or those listed -/
  | rxHex (bs : Bytes)
  /-- `TXDRAIN` -/
  | txDrain
  /-- `WAIT n` -/
  | wait (n : Nat)
  deriving DecidableEq, Repr

/-- The commands a pseudo-operation stands for where it is expanded (30_encoding.md R126). -/
def PseudoOp.expand (s : State) : PseudoOp → List Instr
  | .rxHex bs => bs.map Instr.rxByte
  | .txDrain => List.replicate (s.txQueue.flatten.length - s.txPos) .txPull
  | .wait n => List.replicate n .tick

end Sys2Proof.Machine
end

