-- ==== Sys2Proof/Tests/Slice0.lean ====
section
/-! SUPPORT. Tests against words, vectors and examples of the spec, and for each statement that has hypotheses a
concrete case that meets them. Expected values are from 95_test_vectors.md or worked out by hand from the rules. -/

namespace Sys2Proof.Tests

open Sys2Proof Sys2Proof.Machine

-- One kernel evaluation at a time: each would otherwise take a thread, and its stack, of its own.
set_option Elab.async false

/-! ## Small states -/

/-- R8's defaults and the test values of 95_test_vectors.md section 0. -/
def cfg : Config := { pendingCap := 4, rxQueueCap := 8 }

def fresh : State := State.resetWith cfg

/-- Endpoint `e` Open and not awaiting, with window `w`: `opened(e, w)` of 95_test_vectors.md. -/
def opened (e : Byte) (w : BitVec 3) : State := fresh.modEp e fun x => { x with state := .opened, window := w }

/-- Endpoint 3 in the given state, all else reset. -/
def inState (st : EpState) : State := fresh.modEp 3 fun x => { x with state := st }

/-- `I(3, seq=0, ack=0, "x")` and `I(3, seq=1, ack=0, "y")` (95_test_vectors.md L2.2). -/
def frameX : Bytes := [0x14, 0x03, 0x01, 0x00, 0x08, 0xB8, 0xA0, 0x78, 0x9F, 0xFF]
def frameY : Bytes := [0x14, 0x03, 0x01, 0x00, 0x18, 0x89, 0xB2, 0x79, 0xBE, 0xEF]

/-- A record with the two frames outstanding in a window of 2 (95_test_vectors.md L2.5.8). -/
def sentTwo : Endpoint := { Endpoint.reset 100 with
  state := .opened
  window := 2
  nextTx := 2
  outstanding := 0x03
  rtxQueue := [⟨0, frameX, 0⟩, ⟨1, frameY, 0⟩]
  rtxTimer := ⟨true, 100, 0⟩ }

/-- Endpoint 3 with two frames outstanding, one tick before its deadline. -/
def busy : State := { fresh.setEp 3 sentTwo with now := 99, armCounter := 1 }

/-- The events of a step. -/
def outs (o : Outcome) : List Event := match o with
  | .next t => t.output
  | .fault _ => []
  | .refused _ => []

/-- The TX queue after a step. -/
def queued (o : Outcome) : List Bytes := match o with
  | .next t => t.txQueue
  | .fault _ => []
  | .refused _ => []

/-- The record of endpoint 3 after a step. -/
def record (o : Outcome) : Option Endpoint := match o with
  | .next t => some (t.ep 3)
  | .fault _ => none
  | .refused _ => none

/-! ## Well-formedness refuses ill-formed terms -/

theorem test_wf_refuses_long_payload (P : Bytes) (h : P.length = 65536) : payloadFits P = false := by
  simp [payloadFits, h]

theorem test_wf_refuses_corrupt_without_payload :
    Instr.wf (.iFrame ⟨3, [], true⟩ 0 true 0) = false ∧ Instr.wf (.rr ⟨3, [], true⟩ true 0) = false ∧
    Instr.wf (.rej ⟨3, [], true⟩ true 0) = false ∧ Instr.wf (.ui ⟨0, [], true⟩) = false ∧
    Instr.wf (.upf ⟨3, [], true⟩) = false ∧ Instr.wf (.uack ⟨3, [], true⟩) = false ∧
    Instr.wf (.ureset ⟨3, [], true⟩) = false := by decide

theorem test_wf_refuses_long_frame (P : Bytes) (c : Bool) (h : P.length = 65536) :
    Instr.wf (.iFrame ⟨3, P, c⟩ 0 true 0) = false ∧ Instr.wf (.ui ⟨0, P, c⟩) = false := by
  simp [Instr.wf, RxFrame.wf, payloadFits, h]

theorem test_wf_refuses_long_write (e : Byte) (P : Bytes) (h : P.length = 65536) :
    Instr.wf (.write e P) = false ∧ Instr.wf (.uiSend e P) = false := by
  simp [Instr.wf, payloadFits, h]

/-! ## Decoding: words written out from 30_encoding.md R106 to R108, R121, R122 -/

theorem test_decode_i : decodeTableWord 8 0b01011010 = some (.iFrame ⟨0, [], false⟩ 5 true 2) := by decide +kernel
theorem test_decode_rr : decodeTableWord 8 0b10000110 = some (.rr ⟨0, [], false⟩ false 6) := by decide +kernel
theorem test_decode_rej : decodeTableWord 8 0b10011001 = some (.rej ⟨0, [], false⟩ true 1) := by decide +kernel
theorem test_decode_ui : decodeTableWord 8 0b11000000 = some (.ui ⟨0, [], false⟩) := by decide +kernel
theorem test_decode_upf : decodeTableWord 8 0b11000100 = some (.upf ⟨0, [], false⟩) := by decide +kernel
theorem test_decode_uack : decodeTableWord 8 0b11001110 = some (.uack ⟨0, [], false⟩) := by decide +kernel
theorem test_decode_ureset : decodeTableWord 8 0b11110001 = some (.ureset ⟨0, [], false⟩) := by decide +kernel
theorem test_decode_unknown : decodeTableWord 8 0b11000001 = none := by decide +kernel
theorem test_decode_open : decodeTableWord 16 0b0001100100000101 = some (.openEp 5 1 true) := by decide +kernel
theorem test_decode_close : decodeTableWord 16 0b0010000000000011 = some (.closeEp 3) := by decide +kernel
theorem test_decode_write : decodeTableWord 16 0b0011000000000100 = some (.write 4 []) := by decide +kernel
theorem test_decode_ui_send : decodeTableWord 16 0b0100000000000000 = some (.uiSend 0 []) := by decide +kernel
theorem test_decode_rx_pop : decodeTableWord 16 0b0101000000001100 = some (.rxPop 12) := by decide +kernel
theorem test_decode_status : decodeTableWord 16 0b0110000011111111 = some (.status 255) := by decide +kernel
theorem test_decode_fail : decodeTableWord 16 0b0111000100000011 = some (.fail 3 .securityIncident) := by
  decide +kernel
theorem test_decode_link_reset : decodeTableWord 16 0b1000000000000000 = some .linkReset := by decide +kernel
theorem test_decode_sec_state : decodeTableWord 16 0b1001001100000000 = some (.secState .resetting) := by
  decide +kernel
theorem test_decode_rx_byte : decodeTableWord 16 0b1011000000010100 = some (.rxByte 0x14) := by decide +kernel
theorem test_decode_tx_pull : decodeTableWord 16 0b1100000000000000 = some .txPull := by decide +kernel
theorem test_decode_tick : decodeTableWord 16 0b1101000000000000 = some .tick := by decide +kernel

/-- 95_test_vectors.md L2.6.1: reserved words. -/
theorem test_decode_reserved :
    decodeCommand 0x0000 [] = .error ⟨.raw 0x0, 0⟩ ∧ decodeCommand 0xE012 [] = .error ⟨.raw 0xE, 0x12⟩ ∧
    decodeCommand 0x2103 [] = .error ⟨.cmd .opClose, 3⟩ := ⟨rfl, rfl, rfl⟩

/-- 95_test_vectors.md L2.2: `I(3, seq=0, ack=0, "ping")`, decoded, and as the encoder lays it out. -/
theorem test_frame_ping :
    (decodeFrameBytes [0x14, 0x03, 0x04, 0x00, 0x08, 0x48, 0x4B, 0x70, 0x69, 0x6E, 0x67, 0xEB, 0x73]).toOption =
      some (.iFrame ⟨3, [0x70, 0x69, 0x6E, 0x67], false⟩ 0 true 0) ∧
    frameBytes 3 0x08 [0x70, 0x69, 0x6E, 0x67] =
      [0x14, 0x03, 0x04, 0x00, 0x08, 0x48, 0x4B, 0x70, 0x69, 0x6E, 0x67, 0xEB, 0x73] := by decide +kernel

/-- 95_test_vectors.md L2.1: the check value of the CRC's parameters. -/
theorem test_crc_check_value : crc16 [0x31, 0x32, 0x33, 0x34, 0x35, 0x36, 0x37, 0x38, 0x39] = 0x31C3 := by
  decide +kernel

/-! ## Meanings: one step each, from 95_test_vectors.md -/

/-- L2.4.6: a gap. -/
theorem test_i_gap :
    outs (exec (.iFrame ⟨3, [0x71], false⟩ 1 true 0) (opened 3 1)) = [.rxDrop 3 .gap] ∧
    queued (exec (.iFrame ⟨3, [0x71], false⟩ 1 true 0) (opened 3 1)) = [[0x14, 0x03, 0, 0, 0x90, 0x39, 0x95]] := by
  decide +kernel

/-- L2.4.6: delivery before an invalid ack. -/
theorem test_i_delivered_then_ack_invalid :
    outs (exec (.iFrame ⟨3, [0x62], false⟩ 0 true 5) (opened 3 1)) = [.delivered 3 (some 0) 1, .ackInvalid 3 5] := by
  decide +kernel

/-- L2.5.8: a partial ack. -/
theorem test_rr_partial :
    outs (exec (.rr ⟨3, [], false⟩ false 1) busy) = [.acked 3 1] ∧
    (record (exec (.rr ⟨3, [], false⟩ false 1) busy)).map (fun x => (x.outstanding, x.rtxTimer.deadline)) =
      some (0x02, 199) := by
  decide +kernel

/-- L2.5.3: REJ(3, ack=1) with x and y outstanding. -/
theorem test_rej_resends_y :
    outs (exec (.rej ⟨3, [], false⟩ false 1) busy) = [.acked 3 1, .retransmit 3 1] ∧
    queued (exec (.rej ⟨3, [], false⟩ false 1) busy) = [frameY] := by decide +kernel

/-- L2.5.3: REJ(3, ack=5) with x and y outstanding. -/
theorem test_rej_invalid :
    outs (exec (.rej ⟨3, [], false⟩ false 5) busy) = [.ackInvalid 3 5] ∧
    queued (exec (.rej ⟨3, [], false⟩ false 5) busy) = [] := by decide +kernel

/-- L2.4.10: UI at the system endpoint. -/
theorem test_ui_delivered : outs (exec (.ui ⟨0, [0x41], false⟩) (opened 0 1)) = [.delivered 0 none 1] := by
  decide +kernel

/-- L2.4: row 5. -/
theorem test_ui_address : outs (exec (.ui ⟨3, [0x41], false⟩) fresh) = [.violation .uiAddress] := by decide +kernel

/-- L2.4: row 6. -/
theorem test_upf_ignored : outs (exec (.upf ⟨3, [], false⟩) (opened 3 1)) = [.rxDrop 3 .ignored] := by decide +kernel

/-- L2.4: row 9. -/
theorem test_uack_not_awaiting : outs (exec (.uack ⟨3, [], false⟩) (opened 3 1)) = [.rxDrop 3 .ignored] := by
  decide +kernel

/-- L2.4.9: U-Reset on a Closed endpoint. -/
theorem test_ureset_closed :
    outs (exec (.ureset ⟨3, [], false⟩) fresh) = [] ∧
    queued (exec (.ureset ⟨3, [], false⟩) fresh) = [[0x14, 0x03, 0, 0, 0xCE, 0x02, 0x2E]] := by decide +kernel

/-- R300: an accepted OPEN, with the U-Reset of L2.2. -/
theorem test_open_accepted :
    outs (exec (.openEp 3 1 false) fresh) = [.epState 3 .opened, .cmdOk .opOpen 3] ∧
    queued (exec (.openEp 3 1 false) fresh) = [[0x14, 0x03, 0, 0, 0xF1, 0xBE, 0xE9]] := by decide +kernel

/-- L2.6.3: CLOSE of a Closed endpoint. -/
theorem test_close_closed : exec (.closeEp 3) fresh = .next { fresh with output := [.cmdOk .opClose 3] } := rfl

/-- L2.5.3: the first write. -/
theorem test_write_sent :
    outs (exec (.write 3 [0x78]) (opened 3 2)) = [.writeResult 3 (.sent 0)] ∧
    queued (exec (.write 3 [0x78]) (opened 3 2)) = [frameX] := by decide +kernel

/-- L2.5.2: a write into a full window. -/
theorem test_write_queued : outs (exec (.write 3 [0x68]) busy) = [.writeResult 3 .queued] := by decide +kernel

/-- L2.4.10: UISEND "A". -/
theorem test_ui_send :
    outs (exec (.uiSend 0 [0x41]) (opened 0 1)) = [.cmdOk .opUiSend 0] ∧
    queued (exec (.uiSend 0 [0x41]) (opened 0 1)) = [[0x14, 0, 1, 0, 0xC0, 0x20, 0x63, 0x41, 0xE5, 0x58]] := by
  decide +kernel

/-- L2.4.10: RXPOP of an empty queue. -/
theorem test_rx_pop_empty : outs (exec (.rxPop 0) fresh) = [.rxEmpty 0] := by decide +kernel

/-- L2.5.2: the fields of STATUS after two writes. -/
theorem test_status :
    outs (exec (.status 3) busy) = [.status ⟨3, .opened, false, 2, false, 2, 0, 0x03, 0, 0, 0, 100⟩] := by
  decide +kernel

/-- R306: FAIL with cause 2. -/
theorem test_fail :
    outs (exec (.fail 3 .destUnreach) busy) = [.epState 3 (.error .destUnreach), .cmdOk .opFail 3] := by
  decide +kernel

/-- R310: only the endpoint that is not Closed is reported. -/
theorem test_link_reset :
    outs (exec .linkReset busy) = [.epState 3 .closed, .connLost 3, .linkReset .host, .cmdOk .opLinkReset 0] := by
  decide +kernel

/-- R314: SEC_STATE with nothing pending. -/
theorem test_sec_state : outs (exec (.secState .initializing) fresh) = [.cmdOk .opSecState 0] := by decide +kernel

/-- L2.3: row 5, the last byte of an oversize header. -/
theorem test_rx_byte_oversize :
    outs (exec (.rxByte 0xCD) { fresh with rxPhase := .header, rxBuf := [0x14, 0x03, 0xF8, 0x0F, 0x08, 0x45] }) =
      [.garbage 7, .violation .oversize] := by decide +kernel

/-- L2.3: row 7, the last byte of a corrupt frame. -/
theorem test_rx_byte_corrupt :
    let s := { opened 3 1 with
      rxPhase := .body
      rxBuf := [0x14, 0x03, 0x04, 0x00, 0x08, 0x48, 0x4B, 0x70, 0x69, 0x6F, 0x67, 0xEB]
      rxNeed := 1 }
    outs (exec (.rxByte 0x73) s) = [.frameCorrupt 3, .rxDrop 3 .corrupt] ∧
    queued (exec (.rxByte 0x73) s) = [[0x14, 0x03, 0, 0, 0x90, 0x39, 0x95]] := by decide +kernel

/-- R165: the second byte of a queued frame. -/
theorem test_tx_pull : outs (exec .txPull { fresh with txQueue := [frameX], txPos := 1 }) = [.txByte 0x03] := by
  decide +kernel

/-- L2.5.8: the expiry at now = 100. -/
theorem test_tick_timeout :
    outs (exec .tick busy) = [.timeout 3 1, .retransmit 3 0] ∧ queued (exec .tick busy) = [frameX] := by
  decide +kernel

/-- L2.4.9 by way of `withFetchWord`: the very next step runs the row's instruction. -/
theorem test_fetch_ureset : outs (step (fresh.withFetchWord 8 0xCE)) = [.rxDrop 0 .ignored] := by decide +kernel
theorem test_fetch_tx_pull : outs (step (fresh.withFetchWord 16 0xC000)) = [.txIdle] := by decide +kernel

/-- R124 to R126: the notation against L2.2, a command's word, and TXDRAIN of a frame partly sent. -/
theorem test_notation :
    noteI 3 0 0 [0x78] = frameX ∧ noteRR 3 2 = [0x14, 0x03, 0, 0, 0x82, 0x4A, 0xA7] ∧
    noteREJ 3 5 = [0x14, 0x03, 0, 0, 0x95, 0x9C, 0xC5] ∧ noteUPF 3 = [0x14, 0x03, 0, 0, 0xC4, 0x48, 0x8F] ∧
    lineInput (.secState .initialized) = [⟨0x9200, []⟩] ∧
    (PseudoOp.expand { fresh with txQueue := [frameX, frameY], txPos := 4 } .txDrain).length = 16 := by decide +kernel

/-! ## Witnesses: for each statement with hypotheses, a case that meets them -/

theorem witness_DecodeOfEncode :
    Instr.wf (.iFrame ⟨255, [1], true⟩ 7 true 7) = true ∧
    ∀ P : Bytes, P.length = 65535 → Instr.wf (.write 255 P) = true :=
  ⟨by decide, fun P h => by simp [Instr.wf, payloadFits, h]⟩

theorem witness_DecodedWordEncodesBack :
    decodeCommand 0x30FF [7] = .ok (.write 255 [7]) ∧ decodeCommand 0x4000 [7] = .ok (.uiSend 0 [7]) :=
  ⟨rfl, rfl⟩

theorem witness_DecodedFrameEncodesBack :
    (decodeFrameBytes frameY).toOption = some (.iFrame ⟨3, [0x79], false⟩ 1 true 0) ∧
    instrFrame (.iFrame ⟨3, [0x79], false⟩ 1 true 0) = some (.i, ⟨3, [0x79], false⟩) := by decide +kernel

theorem witness_UnknownControlBytes :
    kind 0xA0 = .unknown ∧ kind 0xBF = .unknown ∧ kind 0xC1 = .unknown ∧ kind 0xFF = .unknown := by decide

theorem witness_ReservedWordsAreRefused :
    refusedWord 0x7303 = some (.cmd .opFail) ∧ refusedWord 0xF0FF = some (.raw 0xF) ∧
    { fresh with input := [{ word := 0xF0FF, payload := [] }] }.input = [⟨0xF0FF, []⟩] ∧
    refusedWord 0x7203 = none ∧ refusedWord 0x1000 = none := by decide +kernel

theorem witness_FrameLayout : (65535 : Nat) ≤ 65535 := Nat.le_refl _

theorem witness_EncodedFramesValidate (b : Byte) :
    (List.replicate 65535 b).length ≤ 65535 ∧ ([b] : Bytes) ≠ [] ∧
    decodeFrame 3 0x80 [b] false = .ok (.rr ⟨3, [b], false⟩ false 0) :=
  ⟨Nat.le_of_eq List.length_replicate, by simp, rfl⟩

/-- R8's defaults, and every parameter at the least value of its range. -/
theorem witness_ResetIsLegal :
    cfg.Valid ∧
    Config.Valid ⟨0, 1, 1, 0, 1, 1, 1, 0, 1⟩ := by
  constructor <;> constructor <;> decide

theorem witness_StepRunsTheDecodedCommand :
    { fresh with input := [{ word := 0x2003, payload := [] }] }.input = { word := 0x2003, payload := [] } :: [] ∧
    decodeCommand 0x2003 [] = .ok (.closeEp 3) ∧ fresh.input = [] := ⟨rfl, rfl, rfl⟩

/-- The last byte of RR(3, ack=0) in HEADER, and of the frame of "x" in BODY. -/
theorem witness_CompletedFrameRunsItsInstruction :
    (decodeFrameBytes ([0x14, 0x03, 0, 0, 0x80, 0x08] ++ [0x87])).toOption = some (.rr ⟨3, [], false⟩ false 0) ∧
    (let s := { fresh with rxPhase := .header, rxBuf := [0x14, 0x03, 0, 0, 0x80, 0x08] };
      s.rxPhase = .header ∧ s.rxBuf.length = 6) ∧
    (decodeFrameBytes (frameX.take 9 ++ [0xFF])).toOption = some (.iFrame ⟨3, [0x78], false⟩ 0 true 0) ∧
    (let s := { fresh with rxPhase := .body, rxBuf := frameX.take 9, rxNeed := 1 };
      s.rxPhase = .body ∧ s.rxNeed = 1 ∧ 7 ≤ s.rxBuf.length) := by decide +kernel

theorem witness_DispatchRunsTheDecodedFrame : decodeFrame 3 0x1D [7] true = .ok (.iFrame ⟨3, [7], true⟩ 1 true 5) :=
  rfl

theorem witness_HuntSeeksTheFlag : fresh.rxPhase = .hunt := rfl

/-- A buffer of one byte, and a whole header but for its last byte. -/
theorem witness_HeaderCheckOrder :
    (let s := { fresh with rxPhase := .header, rxBuf := [0x14] };
      s.rxPhase = .header ∧ s.rxBuf.length ≠ 6) ∧
    (let s := { fresh with rxPhase := .header, rxBuf := [0x14, 0x03, 0, 0, 0x80, 0x08] };
      s.rxPhase = .header ∧ s.rxBuf = [0x14, 0x03, 0, 0, 0x80, 0x08]) := by decide +kernel

/-- The byte before the last, and the last byte. -/
theorem witness_BodyCollectsThenChecks :
    (let s := { fresh with rxPhase := .body, rxBuf := frameX.take 8, rxNeed := 2 };
      s.rxPhase = .body ∧ s.rxNeed = 0 + 2) ∧
    (let s := { fresh with rxPhase := .body, rxBuf := frameX.take 9, rxNeed := 1 };
      s.rxPhase = .body ∧ s.rxNeed = 1 ∧
      s.rxBuf = [0x14, 0x03, 0x01, 0x00, 0x08, 0xB8, 0xA0] ++ [0x78] ++ [0x9F] ∧
      ([0x78] : Bytes).length = (0x01 : Byte).toNat + 256 * (0x00 : Byte).toNat) := by decide +kernel

/-- A payload of exactly MTU bytes. -/
theorem witness_EncodedFrameIsDispatched :
    let s := State.resetWith { cfg with mtu := 2 }
    s.rxPhase = .hunt ∧ ([1, 2] : Bytes).length ≤ s.cfg.mtu ∧ s.cfg.mtu ≤ 65535 := by decide +kernel

theorem witness_DispatchChecksInOrder :
    instrFrame (.rr ⟨15, [0], false⟩ false 0) = some (.rr, ⟨15, [0], false⟩) ∧ ([0] : Bytes) ≠ [] ∧
    instrFrame (.ui ⟨15, [0], false⟩) = some (.ui, ⟨15, [0], false⟩) ∧
    instrFrame (.uack ⟨15, [], false⟩) = some (.uack, ⟨15, [], false⟩) ∧
    instrFrame (.ui ⟨1, [0], false⟩) = some (.ui, ⟨1, [0], false⟩) ∧ (1 : Byte) ≠ 15 ∧ (1 : Byte) ≠ 0 := by decide

/-- Endpoint 14 Closed, and endpoint 3 Open but awaiting. -/
theorem witness_InadmissibleFramesAreDropped :
    ((14 : Byte) ≠ 15 ∧ (fresh.ep 14).state ≠ .opened) ∧
    (let s := (opened 3 1).modEp 3 fun x => { x with awaitingUack := true };
      (s.ep 3).state = .opened ∧ (s.ep 3).awaitingUack = true) := by decide +kernel

theorem witness_InOrderFrameIsDelivered :
    (3 : Byte) ≠ 15 ∧ ((opened 3 1).ep 3).state = .opened ∧ ((opened 3 1).ep 3).awaitingUack = false ∧
    (0 : Seq) = ((opened 3 1).ep 3).expectedRx := by decide +kernel

/-- Corrupt; and not corrupt at the distances 1, 3, 4 and 7. -/
theorem witness_UnacceptedFramesAreAnswered :
    (3 : Byte) ≠ 15 ∧ ((opened 3 1).ep 3).state = .opened ∧ ((opened 3 1).ep 3).awaitingUack = false ∧
    (let d (n : Seq) := (n - ((opened 3 1).ep 3).expectedRx).toNat;
      d 1 = 1 ∧ d 3 = 3 ∧ d 4 = 4 ∧ d 7 = 7) ∧
    (⟨3, [1], true⟩ : RxFrame).corrupt = true ∧ (⟨3, [1], false⟩ : RxFrame).corrupt = false := by decide +kernel

theorem witness_RrAcknowledges :
    (3 : Byte) ≠ 15 ∧ (busy.ep 3).state = .opened ∧ (busy.ep 3).awaitingUack = false := by decide +kernel

theorem witness_RejRetransmitsFromA :
    (3 : Byte) ≠ 15 ∧ (busy.ep 3).state = .opened ∧ (busy.ep 3).awaitingUack = false ∧
    ackValid (busy.ep 3) 1 = true ∧ ((processAck 3 1 busy).ep 3).rtxQueue ≠ [] ∧
    ((processAck 3 2 busy).ep 3).rtxQueue = [] ∧ ackValid (busy.ep 3) 3 = false := by decide +kernel

theorem witness_UiFrameBypassesArq : (⟨0, [0x41], false⟩ : RxFrame).addr = 0 := rfl

theorem witness_UResetResetsOneEndpoint : (1 : Byte) ≠ 0 ∧ (1 : Byte) ≠ 15 ∧ (⟨1, [], false⟩ : RxFrame).payload = [] := by
  decide

theorem witness_UResetAtZeroResetsTheLink :
    (⟨0, [], false⟩ : RxFrame).addr = 0 ∧ (⟨0, [], false⟩ : RxFrame).payload = [] := ⟨rfl, rfl⟩

theorem witness_UAckCompletesReset : (14 : Byte) ≠ 15 ∧ (⟨14, [], false⟩ : RxFrame).payload = [] := by decide

theorem witness_UPollFinalIsIgnored : (0 : Byte) ≠ 15 ∧ (⟨0, [], false⟩ : RxFrame).payload = [] := by decide

/-- Eight stamps and the ninth; nine stamps and the tenth. -/
theorem witness_ViolationThreshold :
    (let s := { fresh with violHist := List.replicate 8 0 };
      s.violHist.length + 1 < s.cfg.violCount) ∧
    (let s := { fresh with violHist := List.replicate 9 0, now := 999 };
      s.cfg.violCount ≤ s.violHist.length + 1 ∧
      (s.violHist ++ [s.now]).drop (s.violHist.length + 1 - s.cfg.violCount) =
        0 :: (List.replicate 8 0 ++ [999])) := by decide +kernel

theorem witness_CloseIsIdempotent : ∃ t, exec (.closeEp 3) busy = .next t := ⟨_, rfl⟩

theorem witness_SecStateCommand :
    SessionState.resetting ≠ .initialized ∧ SessionState.initialized = .initialized := by decide

/-- An empty queue; and the last byte of a frame. -/
theorem witness_TxPullCommand :
    fresh.txQueue = [] ∧
    (let s := { fresh with txQueue := [frameX], txPos := 9 };
      s.txQueue = frameX :: [] ∧ frameX[s.txPos]? = some 0xFF) := by decide +kernel

theorem witness_FramesLeaveWholeInOrder :
    let s := { fresh with txQueue := [frameX, frameY] }
    s.txQueue = [frameX, frameY] ++ [] ∧ s.txPos = 0 ∧ ∀ F ∈ [frameX, frameY], F ≠ [] := by decide +kernel

/-- The records of a state in which one endpoint's record was written after reset. -/
theorem setEp_fresh (a e : Byte) (x : Endpoint) :
    (fresh.setEp a x).ep e = if e = a then x else Endpoint.reset 100 := by
  by_cases h : e = a
  · rw [if_pos h, h]; exact State.setEp_ep_self fresh a x
  · rw [if_neg h]; exact (State.setEp_ep_of_ne fresh x h).trans (State.resetWith_ep cfg e)

theorem busy_ep (e : Byte) : busy.ep e = if e = 3 then sentTwo else Endpoint.reset 100 := setEp_fresh 3 e sentTwo

/-- The one timer that runs in `busy`. -/
theorem busy_timers (t : TimerRef) (h : (timerOf busy t).armed = true) : t = ⟨3, .rtx⟩ := by
  obtain ⟨e, k⟩ := t
  cases k <;> simp only [timerOf, busy_ep] at h <;> split at h <;> first | (rename_i he; subst he; rfl) | cases h

/-- Two ticks before the deadline nothing is due. -/
theorem witness_TickWithNothingDue :
    let s := { busy with now := 98 }
    ∀ t : TimerRef, (timerOf s t).armed = true → s.now + 1 < (timerOf s t).deadline := by
  intro s t h
  rw [busy_timers t h]
  show 99 < (busy.ep 3).rtxTimer.deadline
  rw [busy_ep]
  decide

theorem witness_RtxTimerExpires :
    (busy.ep 3).rtxQueue = ⟨0, frameX, 0⟩ :: [⟨1, frameY, 0⟩] ∧ (busy.ep 3).rtxTimer.armed = true ∧
    (busy.ep 3).rtxTimer.deadline ≤ busy.now + 1 ∧ 1 ≤ min (2 * (busy.ep 3).rto) busy.cfg.rtoMax ∧
    ∀ t : TimerRef, t ≠ ⟨3, .rtx⟩ → (timerOf busy t).armed = true → busy.now + 1 < (timerOf busy t).deadline :=
  ⟨by decide +kernel, by decide +kernel, by decide +kernel, by decide +kernel,
    fun t h ht => absurd (busy_timers t ht) h⟩

/-- A record with a delayed ack that is due at the next tick. -/
def owingAck : Endpoint := { Endpoint.reset 100 with
  state := .opened
  expectedRx := 1
  ackPending := true
  ackTimer := ⟨true, 1, 0⟩ }

def owing : State := fresh.setEp 3 owingAck

theorem owing_timers (t : TimerRef) (h : (timerOf owing t).armed = true) : t = ⟨3, .ack⟩ := by
  obtain ⟨e, k⟩ := t
  cases k <;> simp only [timerOf, owing, setEp_fresh] at h <;> split at h <;>
    first | (rename_i he; subst he; rfl) | cases h

theorem witness_DelayedAckIsSent :
    (owing.ep 3).ackTimer.armed = true ∧ (owing.ep 3).ackTimer.deadline ≤ owing.now + 1 ∧
    ∀ t : TimerRef, t ≠ ⟨3, .ack⟩ → (timerOf owing t).armed = true → owing.now + 1 < (timerOf owing t).deadline :=
  ⟨by decide +kernel, by decide +kernel, fun t h ht => absurd (owing_timers t ht) h⟩

theorem witness_TickLeavesNothingDue : ∃ t, exec .tick busy = .next t := ⟨_, rfl⟩

/-- Endpoints 3 and 4 each with two frames outstanding and the rtx timer given. -/
def twoRtx (a b : Timer) : State :=
  { (fresh.setEp 3 { sentTwo with rtxTimer := a }).setEp 4 { sentTwo with rtxTimer := b } with
    now := 99, armCounter := 2 }

/-- The two timers that run in it. -/
theorem twoRtx_timers (a b : Timer) (t : TimerRef) (h : (timerOf (twoRtx a b) t).armed = true) :
    t = ⟨3, .rtx⟩ ∧ timerOf (twoRtx a b) t = a ∨ t = ⟨4, .rtx⟩ ∧ timerOf (twoRtx a b) t = b := by
  have hep : ∀ e, (twoRtx a b).ep e = if e = 4 then { sentTwo with rtxTimer := b }
      else (fresh.setEp 3 { sentTwo with rtxTimer := a }).ep e := fun e => by
    by_cases h : e = 4
    · rw [if_pos h, h]; exact State.setEp_ep_self _ 4 _
    · rw [if_neg h]; exact State.setEp_ep_of_ne _ _ h
  obtain ⟨e, k⟩ := t
  cases k <;> simp only [timerOf, hep, setEp_fresh] at h ⊢ <;> split at h <;> rename_i h4
  · exact .inr ⟨by rw [h4], by rw [if_pos h4]⟩
  · split at h
    · rename_i h3; exact .inl ⟨by rw [h3], by rw [if_neg h4, if_pos h3]⟩
    · cases h
  · cases h
  · split at h <;> cases h

theorem twoRtx_noneDueBut (a b : Timer) : noneDueBut (twoRtx a b) ⟨4, .rtx⟩ ⟨3, .rtx⟩ := by
  intro t h4 h3 ht
  rcases twoRtx_timers a b t ht with ⟨h, _⟩ | ⟨h, _⟩
  · exact absurd h h3
  · exact absurd h h4

/-- Endpoints 3 and 4 due at once, endpoint 4 armed first (95_test_vectors.md L2.5.9). -/
def tied : State := twoRtx ⟨true, 100, 1⟩ ⟨true, 100, 0⟩

/-- Endpoint 4 due before endpoint 3, though armed later. -/
def apart : State := twoRtx ⟨true, 100, 0⟩ ⟨true, 99, 1⟩

/-- Endpoint 3 with two frames outstanding, `n` retries made, an ack owed, and both timers as given. -/
def bothTimers (n : Nat) (a b : Timer) : State :=
  { fresh.setEp 3 { sentTwo with expectedRx := 1, retryCount := n, rtxTimer := a, ackPending := true, ackTimer := b } with
    now := 99, armCounter := 2 }

theorem bothTimers_only (n : Nat) (a b : Timer) (t : TimerRef)
    (h : (timerOf (bothTimers n a b) t).armed = true) : t = ⟨3, .rtx⟩ ∨ t = ⟨3, .ack⟩ := by
  have hep : ∀ e, (bothTimers n a b).ep e = _ := fun e => setEp_fresh 3 e _
  obtain ⟨e, k⟩ := t
  cases k <;> simp only [timerOf, hep] at h <;> split at h <;>
    first | (rename_i he; subst he; first | exact .inl rfl | exact .inr rfl) | cases h

theorem bothTimers_noneDueBut (n : Nat) (a b : Timer) :
    noneDueBut (bothTimers n a b) ⟨3, .rtx⟩ ⟨3, .ack⟩ := by
  intro t h1 h2 ht
  rcases bothTimers_only n a b t ht with h | h
  · exact absurd h h1
  · exact absurd h h2

/-- Two endpoints: equal deadlines, and an earlier deadline of the timer armed later. -/
theorem witness_TimersFireInOrder_two :
    (dueAtTick tied ⟨4, .rtx⟩ ∧ dueAtTick tied ⟨3, .rtx⟩ ∧ ahead tied ⟨4, .rtx⟩ ⟨3, .rtx⟩) ∧
    (dueAtTick apart ⟨4, .rtx⟩ ∧ dueAtTick apart ⟨3, .rtx⟩ ∧ ahead apart ⟨4, .rtx⟩ ⟨3, .rtx⟩) ∧
    1 ≤ (tied.ep 4).rto ∧ 1 ≤ (tied.ep 3).rto ∧ 1 ≤ tied.cfg.rtoMax ∧
    1 ≤ (apart.ep 4).rto ∧ 1 ≤ (apart.ep 3).rto ∧ 1 ≤ apart.cfg.rtoMax ∧
    ¬((4 : Byte) = 3) := by
  simp only [dueAtTick, ahead]
  decide +kernel

theorem witness_TimersFireInOrder_two_alone :
    noneDueBut tied ⟨4, .rtx⟩ ⟨3, .rtx⟩ ∧ noneDueBut apart ⟨4, .rtx⟩ ⟨3, .rtx⟩ :=
  ⟨twoRtx_noneDueBut _ _, twoRtx_noneDueBut _ _⟩

/-- One endpoint: the rtx timer ahead with a retry left, and the ack timer ahead. -/
theorem witness_TimersFireInOrder_one :
    (let s := bothTimers 4 ⟨true, 99, 1⟩ ⟨true, 100, 0⟩;
      dueAtTick s ⟨3, .rtx⟩ ∧ dueAtTick s ⟨3, .ack⟩ ∧ ahead s ⟨3, .rtx⟩ ⟨3, .ack⟩ ∧
      1 ≤ (s.ep 3).rto ∧ 1 ≤ s.cfg.rtoMax ∧ ¬(s.cfg.maxRetries ≤ (s.ep 3).retryCount)) ∧
    (let s := bothTimers 5 ⟨true, 100, 1⟩ ⟨true, 100, 0⟩;
      dueAtTick s ⟨3, .ack⟩ ∧ dueAtTick s ⟨3, .rtx⟩ ∧ ahead s ⟨3, .ack⟩ ⟨3, .rtx⟩ ∧
      1 ≤ (s.ep 3).rto ∧ 1 ≤ s.cfg.rtoMax ∧ ¬(TimerKind.ack = .rtx)) := by
  simp only [dueAtTick, ahead]
  decide +kernel

theorem witness_TimersFireInOrder_one_alone (n : Nat) (a b : Timer) :
    noneDueBut (bothTimers n a b) ⟨3, .rtx⟩ ⟨3, .ack⟩ ∧ noneDueBut (bothTimers n a b) ⟨3, .ack⟩ ⟨3, .rtx⟩ :=
  ⟨bothTimers_noneDueBut n a b, fun t h1 h2 => bothTimers_noneDueBut n a b t h2 h1⟩

/-- The rtx timer ahead of the ack timer, with every retry made. -/
theorem witness_TimersFireInOrder_cancelled :
    let s := bothTimers 5 ⟨true, 100, 0⟩ ⟨true, 100, 1⟩
    dueAtTick s ⟨3, .rtx⟩ ∧ dueAtTick s ⟨3, .ack⟩ ∧ ahead s ⟨3, .rtx⟩ ⟨3, .ack⟩ ∧
    s.cfg.maxRetries ≤ (s.ep 3).retryCount := by
  simp only [dueAtTick, ahead]
  decide +kernel

/-- 44_arq.md R280, R281: the delayed RR, then the oldest frame; the other way round; and the failure alone. -/
theorem test_tick_one_endpoint :
    queued (exec .tick (bothTimers 0 ⟨true, 100, 1⟩ ⟨true, 100, 0⟩)) =
      [frameBytes 3 0x81 [], frameX] ∧
    queued (exec .tick (bothTimers 0 ⟨true, 99, 1⟩ ⟨true, 100, 0⟩)) = [frameX, frameBytes 3 0x81 []] ∧
    queued (exec .tick (bothTimers 5 ⟨true, 99, 1⟩ ⟨true, 100, 0⟩)) = [] := by decide +kernel

/-! ### A legal state in which an endpoint is at work -/

theorem cfg_valid : cfg.Valid := by constructor <;> decide

/-- The record of endpoint 3 of `busy` is legal. -/
theorem sentTwo_legal : EpInv cfg 3 sentTwo where
  window_pos := by decide
  outstanding_count := by decide
  within_window := by decide
  consecutive i E h := by
    match i, h with
    | 0, h => cases h; decide
    | 1, h => cases h; decide
    | n + 2, h => cases h
  next_after_last := by decide
  mask_exact := by decide
  stored E hE := by
    rcases List.mem_cons.mp hE with rfl | hE
    · exact ⟨0, [0x78], by decide, by decide +kernel⟩
    · rcases List.mem_cons.mp hE with rfl | hE
      · exact ⟨0, [0x79], by decide, by decide +kernel⟩
      · cases hE
  rtx_armed := by decide
  ack_armed := by decide
  idle_unless_open h := absurd rfl h
  awaiting_open h := by cases h
  rxQueue_open h := absurd rfl h
  seq_open h := absurd rfl h
  rto_range := by decide
  retry_range := by decide
  pending_range := ⟨by decide, by decide⟩
  rxQueue_range := ⟨by decide, by decide⟩

/-- The reset record is legal with these parameters. -/
theorem closed_legal (e : Byte) : EpInv cfg e (Endpoint.reset 100) where
  window_pos := by decide
  outstanding_count := by decide
  within_window := by decide
  consecutive i E h := by cases h
  next_after_last := by decide
  mask_exact := by decide
  stored E hE := by cases hE
  rtx_armed := by decide
  ack_armed := by decide
  idle_unless_open _ := by decide
  awaiting_open h := by cases h
  rxQueue_open _ := rfl
  seq_open _ := by decide
  rto_range := by decide
  retry_range := by decide
  pending_range := ⟨by decide, by decide⟩
  rxQueue_range := ⟨by decide, by decide⟩

/-- A state with frames outstanding, a timer running and a frame partly sent satisfies every invariant. -/
theorem busy_legal : State.Inv { busy with txQueue := [frameX], txPos := 9, input := [⟨0xD000, []⟩] } where
  cfg := cfg_valid
  ep e := by
    show EpInv cfg e (busy.ep e)
    rw [busy_ep]
    split
    · rename_i h; rw [h]; exact sentTwo_legal
    · exact closed_legal e
  ep15 := by decide +kernel
  rx := ⟨rfl, rfl⟩
  tx := {
    sendable := fun F hF => by
      rcases List.mem_cons.mp hF with rfl | hF
      · exact ⟨3, 0x08, [0x78], by decide, by decide, by decide +kernel⟩
      · cases hF
    idle := fun h => by cases h
    cursor := fun F hF => by cases hF; decide }
  viol := ⟨by decide, by decide, List.Pairwise.nil⟩

/-- The step from it: the timer of endpoint 3 expires. -/
theorem witness_EveryStepKeepsInvariants :
    State.Inv { busy with txQueue := [frameX], txPos := 9, input := [⟨0xD000, []⟩] } ∧
    ∃ t, step { busy with txQueue := [frameX], txPos := 9, input := [⟨0xD000, []⟩] } = .next t :=
  ⟨busy_legal, _, rfl⟩

theorem witness_NothingStopsTheBlock :
    State.Inv { busy with txQueue := [frameX], txPos := 9, input := [⟨0xD000, []⟩] } := busy_legal

theorem witness_LinkResetClosesEverything :
    State.Inv { busy with txQueue := [frameX], txPos := 9, input := [⟨0xD000, []⟩] } := busy_legal

/-- With both frames outstanding, an ack of the first leaves the second at the head. -/
theorem witness_HeadAfterAckIsA :
    EpInv busy.cfg 3 (busy.ep 3) ∧ ackValid (busy.ep 3) 1 = true ∧
    ((processAck 3 1 busy).ep 3).rtxQueue.head? = some ⟨1, frameY, 0⟩ :=
  ⟨by rw [busy_ep]; exact sentTwo_legal, by decide +kernel, by decide +kernel⟩

theorem witness_OnlyItsEndpointChanges :
    instrTarget (.rr ⟨3, [], false⟩ false 1) = some 3 ∧ passesDispatch (.rr ⟨3, [], false⟩ false 1) ∧
    (∃ t, exec (.rr ⟨3, [], false⟩ false 1) busy = .next t) ∧ (4 : Byte) ≠ 3 :=
  ⟨rfl, fun k f h => by cases h; rfl, ⟨_, rfl⟩, by decide⟩

theorem witness_WhoWritesWhat : ∃ t, exec (.openEp 3 1 false) fresh = .next t := ⟨_, rfl⟩

/-- `busy` with endpoint 3 encrypted: a legal state in which frames are outstanding and the session is NotReady. -/
def gated : State := { fresh.setEp 3 { sentTwo with encrypted := true } with now := 99, armCounter := 1 }

theorem gated_legal : gated.Inv where
  cfg := cfg_valid
  ep e := by
    show EpInv cfg e (gated.ep e)
    rw [show gated.ep e = _ from setEp_fresh 3 e _]
    split
    · rename_i h; rw [h]; exact { sentTwo_legal with }
    · exact closed_legal e
  ep15 := by decide +kernel
  rx := ⟨rfl, rfl⟩
  tx := { sendable := nofun, idle := fun _ => rfl, cursor := nofun }
  viol := ⟨by decide, by decide, List.Pairwise.nil⟩

/-- A REJ repeats the stored frames of the endpoint. -/
theorem witness_NoEgressBeforeInitialized :
    (gated.ep 3).encrypted = true ∧ gated.session ≠ .initialized ∧
    (Instr.rej ⟨3, [], false⟩ false 0) ≠ .secState .initialized ∧
    queued (exec (.rej ⟨3, [], false⟩ false 0) gated) = [frameX, frameY] ∧
    (headerAt frameX).map (fun h => (h.addr, kind h.control)) = some (3, .i) := by decide +kernel

theorem witness_NoEgressBeforeInitialized_next :
    gated.Inv ∧ ∃ t, exec (.rej ⟨3, [], false⟩ false 0) gated = .next t := ⟨gated_legal, _, rfl⟩

theorem witness_RxQueueGrowsInOrder :
    (∀ b, (Instr.iFrame ⟨3, [7], false⟩ 0 true 0) ≠ .rxByte b) ∧
    ∃ t, exec (.iFrame ⟨3, [7], false⟩ 0 true 0) (opened 3 1) = .next t := ⟨(nofun), _, rfl⟩

/-- The two timers of `tied` carry the stamps 0 and 1. -/
theorem witness_StampsStayDistinct :
    StampsDistinct { tied with input := [⟨0xD000, []⟩] } ∧
    ∃ t, step { tied with input := [⟨0xD000, []⟩] } = .next t := by
  have h : ∀ t : TimerRef, (timerOf tied t).armed = true →
      t = ⟨3, .rtx⟩ ∧ (timerOf tied t).armSeq = 1 ∨ t = ⟨4, .rtx⟩ ∧ (timerOf tied t).armSeq = 0 := fun t ht =>
    (twoRtx_timers _ _ t ht).imp (fun h => ⟨h.1, congrArg Timer.armSeq h.2⟩) fun h => ⟨h.1, congrArg Timer.armSeq h.2⟩
  refine ⟨⟨fun t ht => ?_, fun t u ht hu heq => ?_⟩, _, rfl⟩
  · show (timerOf tied t).armSeq < 2
    rcases h t ht with ⟨_, h⟩ | ⟨_, h⟩ <;> rw [h] <;> decide
  · have heq : (timerOf tied t).armSeq = (timerOf tied u).armSeq := heq
    rcases h t ht with ⟨ht, h1⟩ | ⟨ht, h1⟩ <;> rcases h u hu with ⟨hu, h2⟩ | ⟨hu, h2⟩
    · rw [ht, hu]
    · rw [h1, h2] at heq; cases heq
    · rw [h1, h2] at heq; cases heq
    · rw [ht, hu]

/-- Each kind of transition, from a legal state: to Closed, to Open, to Closing, to FaultNoAck, to another Error. -/
theorem witness_LifecycleTransitions :
    (record (exec .linkReset busy)).map (·.state) = some .closed ∧
    (record (exec (.openEp 3 1 false) fresh)).map (·.state) = some .opened ∧
    (record (exec (.closeEp 3) busy)).map (·.state) = some .closing ∧
    (record (exec .tick (busy.modEp 3 fun x => { x with retryCount := 5 }))).map (·.state) = some (.error .faultNoAck) ∧
    (record (exec (.fail 3 .remoteError) busy)).map (·.state) = some (.error .remoteError) := by decide +kernel

theorem witness_LifecycleTransitions_legal :
    State.Inv { busy with txQueue := [frameX], txPos := 9, input := [⟨0xD000, []⟩] } ∧
    record (exec (.closeEp 3) { busy with txQueue := [frameX], txPos := 9, input := [⟨0xD000, []⟩] }) ≠
      some sentTwo := ⟨busy_legal, by decide +kernel⟩

/-- The reset record is legal in every state. -/
theorem idle_legal (e : Byte) (st : EpState) : EpInv cfg e { Endpoint.reset 100 with state := st } :=
  { closed_legal e with
    idle_unless_open := fun _ => (closed_legal e).idle_unless_open (nofun)
    awaiting_open := nofun
    rxQueue_open := fun _ => rfl
    seq_open := fun _ => ⟨rfl, rfl⟩ }

theorem inState_legal (st : EpState) : (inState st).Inv := by
  have hep : ∀ e, (inState st).ep e = if e = 3 then { Endpoint.reset 100 with state := st } else Endpoint.reset 100 :=
    fun e => by
      rw [show (inState st).ep e = _ from setEp_fresh 3 e _, show fresh.ep 3 = Endpoint.reset 100 from
        State.resetWith_ep cfg 3]
  exact {
    cfg := cfg_valid
    ep := fun e => by
      show EpInv cfg e ((inState st).ep e)
      rw [hep]
      split
      · exact idle_legal e st
      · exact closed_legal e
    ep15 := by rw [hep]; rfl
    rx := ⟨rfl, rfl⟩
    tx := { sendable := nofun, idle := fun _ => rfl, cursor := nofun }
    viol := ⟨Nat.zero_le _, nofun, List.Pairwise.nil⟩ }

/-- The causes of Closed beside the link reset: a U-Ack and a U-Reset on a Closing endpoint, CLOSE of a lost and of a
failed one; and the RX_BYTE that completes a U-Ack. -/
theorem witness_LifecycleTransitions_closed :
    (record (exec (.uack ⟨3, [], false⟩) (inState .closing))).map (·.state) = some .closed ∧
    (record (exec (.ureset ⟨3, [], false⟩) (inState .closing))).map (·.state) = some .closed ∧
    (record (exec (.closeEp 3) (inState .connectionLost))).map (·.state) = some .closed ∧
    (record (exec (.closeEp 3) (inState (.error .destUnreach)))).map (·.state) = some .closed ∧
    (let s := { inState .closing with rxPhase := .header, rxBuf := [0x14, 0x03, 0, 0, 0xCE, 0x02] };
      (record (exec (.rxByte 0x2E) s)).map (·.state) = some .closed ∧
      s.rxPhase = .header ∧ s.rxBuf.length = 6 ∧
      (decodeFrameBytes (s.rxBuf ++ [0x2E])).toOption = some (.uack ⟨3, [], false⟩)) := by decide +kernel

theorem witness_LifecycleTransitions_closed_legal :
    (inState .closing).Inv ∧ (inState .connectionLost).Inv ∧ (inState (.error .destUnreach)).Inv :=
  ⟨inState_legal _, inState_legal _, inState_legal _⟩

/-- The sticky error left alone by CLOSE, and left to Closed by a link reset. -/
theorem witness_SecurityIncidentIsSticky :
    ((inState (.error .securityIncident)).ep 3).state = .error .securityIncident ∧
    ((inState (.error .securityIncident)).ep 3).rtxTimer.armed = false ∧
    (record (exec (.closeEp 3) (inState (.error .securityIncident)))).map (·.state) =
      some (.error .securityIncident) ∧
    (record (exec .linkReset (inState (.error .securityIncident)))).map (·.state) = some .closed := by decide +kernel

end Sys2Proof.Tests
end

section
/-! SUPPORT. The two readings of the encodings agree: the fields of a command word and of a control byte as numbers, the
refusals of the decoder against the table of 30_encoding.md R121 to R123, and the UNKNOWN control bytes of R110. -/

namespace Sys2Proof

open Machine

/-! ## The fields of a command word as numbers (30_encoding.md R120) -/

theorem opOf_toNat (w : Word) : (opOf w).toNat = w.toNat / 0x1000 := by
  simp only [opOf, BitVec.extractLsb'_toNat, Nat.shiftRight_eq_div_pow]
  omega

theorem argOf_toNat (w : Word) : (argOf w).toNat = w.toNat / 0x100 % 0x10 := by
  simp only [argOf, BitVec.extractLsb'_toNat, Nat.shiftRight_eq_div_pow]

theorem epOf_toNat (w : Word) : (epOf w).toNat = w.toNat % 0x100 := by
  simp only [epOf, BitVec.extractLsb'_toNat, Nat.shiftRight_zero]

theorem argHighOf_toNat (w : Word) : (argHighOf w).toNat = w.toNat / 0x100 % 0x10 / 4 := by
  simp only [argHighOf, BitVec.extractLsb'_toNat, Nat.shiftRight_eq_div_pow]
  omega

theorem argLowOf_toNat (w : Word) : (argLowOf w).toNat = w.toNat / 0x100 % 0x10 % 4 := by
  simp only [argLowOf, BitVec.extractLsb'_toNat, Nat.shiftRight_eq_div_pow]
  omega

theorem opOf_eq_ofNat (w : Word) : opOf w = BitVec.ofNat 4 (w.toNat / 0x1000) := by
  rw [← opOf_toNat, BitVec.ofNat_toNat, BitVec.setWidth_eq]

theorem epOf_eq_setWidth (w : Word) : epOf w = w.setWidth 8 :=
  BitVec.eq_of_toNat_eq (by rw [epOf_toNat, BitVec.toNat_setWidth])

/-- A field's test for zero is a test on its value. -/
theorem beq_zero_eq_toNat_beq {n : Nat} (v : BitVec n) : (v == 0) = (v.toNat == 0) := by
  rw [Bool.eq_iff_iff, beq_iff_eq, beq_iff_eq, BitVec.toNat_eq, BitVec.ofNat_eq_ofNat, BitVec.toNat_zero]

/-- Only the value 3 is no cause of FAIL (30_encoding.md R122). -/
theorem failCauseOf_eq_none_iff (v : BitVec 2) : failCauseOf v = none ↔ v.toNat = 3 := by
  revert v
  decide

/-! ## The refusals of the decoder (30_encoding.md R123) -/

/-- The refusal in the decoder's answer, if it refuses. -/
def refusalOf : Except BadCommand Instr → Option BadCommand
  | .ok _ => none
  | .error b => some b

theorem refusalOf_eq_some_iff {r : Except BadCommand Instr} {b : BadCommand} :
    refusalOf r = some b ↔ r = .error b := by
  cases r <;> simp [refusalOf]

theorem refusalOf_eq_none_iff {r : Except BadCommand Instr} : refusalOf r = none ↔ ∃ i, r = .ok i := by
  cases r <;> simp [refusalOf]

theorem refusalOf_requireZero (zero : Bool) (m : Mnemonic) (w : Word) (i : Instr) :
    refusalOf (requireZero zero m w i) = if zero then none else some ⟨.cmd m, epOf w⟩ := by
  cases zero <;> rfl

/-- FAIL is refused for a must-be-zero bit or for the reserved cause, in either case under its own name. -/
theorem refusalOf_decodeFail (w : Word) :
    refusalOf (decodeFail w) =
      if argHighOf w == 0 && (argLowOf w).toNat != 3 then none else some ⟨.cmd .opFail, epOf w⟩ := by
  unfold decodeFail
  cases hc : failCauseOf (argLowOf w) with
  | none =>
    have hreserved := (failCauseOf_eq_none_iff _).mp hc
    simp [hreserved, refusalOf]
  | some cause =>
    have hlegal : (argLowOf w).toNat ≠ 3 := fun h => by simp [(failCauseOf_eq_none_iff _).mpr h] at hc
    simp [hlegal, refusalOf_requireZero]

/-- The decoder refuses exactly the words of the spec's table, under the op that the table names. -/
theorem refusalOf_decodeCommand (w : Word) (P : Bytes) :
    refusalOf (decodeCommand w P) = (refusedWord w).map fun op => ⟨op, epOf w⟩ := by
  unfold decodeCommand refusedWord
  rw [opOf_toNat]
  split
  case h_1 => simp only [*, refusalOf, Option.map_none]
  case h_13 => simp [*, refusalOf, opOf_eq_ofNat]
  all_goals
    simp only [*, refusalOf_requireZero, refusalOf_decodeFail, beq_zero_eq_toNat_beq, argOf_toNat, epOf_toNat,
      argHighOf_toNat, argLowOf_toNat, apply_ite (Option.map _), Option.map_none, Option.map_some]

theorem decodeCommand_of_refusedWord {w : Word} {op : CmdOp} (h : refusedWord w = some op) (P : Bytes) :
    decodeCommand w P = .error ⟨op, epOf w⟩ := by
  rw [← refusalOf_eq_some_iff, refusalOf_decodeCommand, h, Option.map_some]

theorem decodeCommand_of_not_refusedWord {w : Word} (h : refusedWord w = none) (P : Bytes) :
    ∃ i, decodeCommand w P = .ok i := by
  rw [← refusalOf_eq_none_iff, refusalOf_decodeCommand, h, Option.map_none]

/-- A step whose word the decoder refuses takes the event and rejects it, and does nothing else. -/
theorem step_of_decodeCommand_error {s : State} {x : InputEvent} {rest : List InputEvent} {b : BadCommand}
    (hin : s.input = x :: rest) (hdec : decodeCommand x.word x.payload = .error b) :
    step s = .next (rejectCommand b (s.setInput rest)) := by
  simp only [step, hin, runInput, hdec]

/-- Settles O5: the decoder refuses exactly the words that the table refuses, and a refused word only rejects. -/
theorem reservedWordsAreRefused : Obligations.ReservedWordsAreRefused := by
  unfold Obligations.ReservedWordsAreRefused
  refine ⟨fun s w P rest op hin hop => ?_, fun w P hnone => decodeCommand_of_not_refusedWord hnone P⟩
  have hdec : decodeCommand w P = .error ⟨op, w.setWidth 8⟩ := by
    rw [decodeCommand_of_refusedWord hop, epOf_eq_setWidth]
  rw [step_of_decodeCommand_error hin hdec]
  rfl

/-! ## The fields of a control byte as numbers (30_encoding.md R105 to R108) -/

theorem formatOf_toNat (c : Byte) : (formatOf c).toNat = c.toNat / 64 := by
  simp only [formatOf, BitVec.extractLsb'_toNat, Nat.shiftRight_eq_div_pow]
  omega

theorem functionOf_toNat (c : Byte) : (functionOf c).toNat = c.toNat / 16 % 4 := by
  simp only [functionOf, BitVec.extractLsb'_toNat, Nat.shiftRight_eq_div_pow]

theorem utypeOf_toNat (c : Byte) : (utypeOf c).toNat = c.toNat % 64 := by
  simp only [utypeOf, BitVec.extractLsb'_toNat, Nat.shiftRight_zero]

/-- An I-frame's control byte is one below 0x80 (30_encoding.md R106). -/
theorem getLsbD_seven_eq_false_iff (c : Byte) : c.getLsbD 7 = false ↔ c.toNat < 0x80 := by
  have hlast : c.getLsbD 7 = c.msb := rfl
  rw [hlast, BitVec.msb_eq_false_iff_two_mul_lt]
  omega

/-! ## The UNKNOWN control bytes (30_encoding.md R109, R110) -/

/-- R110's set is what the branches of `kind` leave: the S-frames of a reserved function, and the U-frames of a
reserved type. -/
theorem kind_eq_unknown_iff (c : Byte) :
    kind c = .unknown ↔
      (0xA0 ≤ c.toNat ∧ c.toNat ≤ 0xBF) ∨
        (0xC0 ≤ c.toNat ∧ c ≠ 0xC0 ∧ c ≠ 0xC4 ∧ c ≠ 0xCE ∧ c ≠ 0xF1) := by
  have hc := c.isLt
  simp only [kind, getLsbD_seven_eq_false_iff, ne_eq, BitVec.toNat_eq, formatOf_toNat, functionOf_toNat, utypeOf_toNat,
    BitVec.ofNat_eq_ofNat, BitVec.toNat_ofNat]
  repeat' split
  all_goals
    simp only [reduceCtorEq, false_iff, true_iff]
    omega

theorem unknown_count : ((List.range 256).filter fun n => kind (BitVec.ofNat 8 n) = .unknown).length = 92 := by
  decide +kernel

theorem dispatch_of_kind_unknown {c : Byte} (h : kind c = .unknown) (a : Byte) (P : Bytes) (corrupt : Bool)
    (s : State) :
    dispatch a c P corrupt s = raiseViolation .unknownType s := by
  simp only [dispatch, h]

/-- Settles O4: the set by the branches of `kind`, its size by counting, the violation by `dispatch`. -/
theorem unknownControlBytes : Obligations.UnknownControlBytes := by
  unfold Obligations.UnknownControlBytes
  exact ⟨kind_eq_unknown_iff, unknown_count, fun a c P corrupt s h => dispatch_of_kind_unknown h a P corrupt s⟩

end Sys2Proof
end

section
/-! SUPPORT. The transmit half of the framer: the bytes of an encoded frame as numbers, and what one TX_PULL does
(41_framer_tx.md R160, R165). -/

namespace Sys2Proof

open Machine

/-! ## The bytes of an encoded frame (30_encoding.md R100 to R103) -/

/-- The two bytes of a little-endian field are the remainder and the quotient of its value by 256. -/
theorem le16_eq_ofNat (x : Word) :
    le16 x = [BitVec.ofNat 8 (x.toNat % 256), BitVec.ofNat 8 (x.toNat / 256)] := by
  have hlo : x.setWidth 8 = BitVec.ofNat 8 (x.toNat % 256) := by
    apply BitVec.eq_of_toNat_eq
    simp only [BitVec.toNat_setWidth, BitVec.toNat_ofNat]
    omega
  have hhi : (x >>> 8).setWidth 8 = BitVec.ofNat 8 (x.toNat / 256) := by
    apply BitVec.eq_of_toNat_eq
    simp only [BitVec.toNat_setWidth, BitVec.toNat_ushiftRight, BitVec.toNat_ofNat, Nat.shiftRight_eq_div_pow]
  rw [le16_eq, hlo, hhi]

/-- The length field holds every length up to 65535 without loss. -/
theorem headerPrefix_eq_ofNat (a c : Byte) {L : Nat} (hL : L ≤ 65535) :
    headerPrefix a c L = [0x14, a, BitVec.ofNat 8 (L % 256), BitVec.ofNat 8 (L / 256), c] := by
  have hfits : (BitVec.ofNat 16 L).toNat = L := by
    rw [BitVec.toNat_ofNat]
    exact Nat.mod_eq_of_lt (Nat.lt_succ_of_le hL)
  rw [headerPrefix, le16_eq_ofNat, hfits]
  rfl

theorem frameBytes_of_nil (a c : Byte) :
    frameBytes a c [] = headerPrefix a c 0 ++ le16 (crc16 (headerPrefix a c 0)) := rfl

theorem frameBytes_of_ne_nil (a c : Byte) {P : Bytes} (hP : P ≠ []) :
    frameBytes a c P =
      headerPrefix a c P.length ++ le16 (crc16 (headerPrefix a c P.length)) ++ P ++ le16 (crc16 P) := by
  simp only [frameBytes, hcsGen, fcsGen, List.isEmpty_eq_false_iff.mpr hP, Bool.false_eq_true, if_false,
    List.append_assoc]

/-- Settles O9: above MTU by `encodeFrame_eq`; up to MTU the length fits its field, and the layout's fields are read
as numbers, without a payload and with one. -/
theorem frameLayout : Obligations.FrameLayout := by
  unfold Obligations.FrameLayout
  intro lo hi mtu a c P hmtu H5 hcs fcs
  rw [encodeFrame_eq]
  by_cases hlong : mtu < P.length
  · rw [if_neg (Nat.not_le.mpr hlong), if_pos hlong]
  · have hshort : P.length ≤ mtu := Nat.le_of_not_lt hlong
    have hprefix : headerPrefix a c P.length = H5 := headerPrefix_eq_ofNat a c (Nat.le_trans hshort hmtu)
    rw [if_pos hshort, if_neg hlong]
    by_cases hP : P = []
    · subst hP
      rw [if_pos rfl, frameBytes_of_nil, ← List.length_nil, hprefix, le16_eq_ofNat]
    · rw [if_neg hP, frameBytes_of_ne_nil a c hP, hprefix, le16_eq_ofNat, le16_eq_ofNat]

/-! ## One TX_PULL (41_framer_tx.md R165) -/

theorem exec_txPull_of_empty {s : State} (hq : s.txQueue = []) : exec .txPull s = .next (s.out .txIdle) := by
  simp only [exec, execTxPull, hq]

/-- The last byte of the head frame: the frame leaves the queue, and the cursor returns to the start. -/
theorem exec_txPull_of_last {s : State} {F : Bytes} {rest : List Bytes} {b : Byte} (hq : s.txQueue = F :: rest)
    (hb : F[s.txPos]? = some b) (hlast : s.txPos + 1 = F.length) :
    exec .txPull s = .next ((s.out (.txByte b)).setTx rest 0) := by
  simp only [exec, execTxPull, hq, hb, hlast, if_true]

/-- Any other byte of the head frame: the cursor moves on, and the queue stays. -/
theorem exec_txPull_of_not_last {s : State} {F : Bytes} {rest : List Bytes} {b : Byte} (hq : s.txQueue = F :: rest)
    (hb : F[s.txPos]? = some b) (hmore : s.txPos + 1 ≠ F.length) :
    exec .txPull s = .next ((s.out (.txByte b)).setTx s.txQueue (s.txPos + 1)) := by
  simp only [exec, execTxPull, hq, hb, hmore, if_false]

/-- Settles O45: the empty queue, the last byte of the head frame and any other byte of it, each by its equation. -/
theorem txPullCommand : Obligations.TxPullCommand := by
  unfold Obligations.TxPullCommand
  refine fun s => ⟨fun hq => exec_txPull_of_empty hq, fun F rest b hq hb => ?_⟩
  by_cases hlast : s.txPos + 1 = F.length
  · rw [exec_txPull_of_last hq hb hlast, if_pos hlast, if_pos hlast]
    rfl
  · rw [exec_txPull_of_not_last hq hb hlast, if_neg hlast, if_neg hlast]
    rfl

end Sys2Proof
end

section
/-! SUPPORT. The receive half of the framer: the checks of a frame in the numbers its bytes carry, and what one RX_BYTE
does in each phase of the deframer (42_deframer_rx.md R181 to R187). -/

namespace Sys2Proof

open Machine

/-! ## The checks as numbers (30_encoding.md R101; 40_crc.md R142, R143) -/

/-- A little-endian field as a number: the two bytes do not overlap, so their disjunction is their sum. -/
theorem rdLe16_toNat (lo hi : Byte) : (rdLe16 lo hi).toNat = lo.toNat + 256 * hi.toNat := by
  have hlo := lo.isLt
  have hhi := hi.isLt
  have hsum : 2 ^ 8 * hi.toNat + lo.toNat = 2 ^ 8 * hi.toNat ||| lo.toNat := Nat.two_pow_add_eq_or_of_lt hlo hi.toNat
  have hshift : hi.toNat * 2 ^ 8 % 2 ^ 16 = 2 ^ 8 * hi.toNat := by omega
  have hwide : ∀ x : Byte, x.toNat % 2 ^ 16 = x.toNat := fun x => Nat.mod_eq_of_lt (by have := x.isLt; omega)
  rw [rdLe16, BitVec.toNat_or, BitVec.toNat_shiftLeft, BitVec.toNat_setWidth, BitVec.toNat_setWidth, hwide, hwide,
    Nat.shiftLeft_eq, hshift, Nat.or_comm, ← hsum]
  omega

theorem rdLe16_eq_ofNat (lo hi : Byte) : rdLe16 lo hi = BitVec.ofNat 16 (lo.toNat + 256 * hi.toNat) := by
  rw [← rdLe16_toNat, BitVec.ofNat_toNat, BitVec.setWidth_eq]

theorem header_length_eq (h : Header) : h.length = h.lenLo.toNat + 256 * h.lenHi.toNat :=
  rdLe16_toNat h.lenLo h.lenHi

theorem hcsOk_eq_false_iff (h : Header) :
    hcsOk h = false ↔ crc16 h.covered ≠ BitVec.ofNat 16 (h.hcsLo.toNat + 256 * h.hcsHi.toNat) := by
  rw [hcsOk, beq_eq_false_iff_ne, rdLe16_eq_ofNat]

theorem fcsOk_eq_true_iff (P : Bytes) (f0 f1 : Byte) :
    fcsOk P f0 f1 = true ↔ crc16 P = BitVec.ofNat 16 (f0.toNat + 256 * f1.toNat) := by
  rw [fcsOk, beq_iff_eq, rdLe16_eq_ofNat]

/-! ## One RX_BYTE in HUNT (42_deframer_rx.md R182) -/

theorem exec_rxByte_of_hunt {s : State} (hs : s.rxPhase = .hunt) (b : Byte) :
    exec (.rxByte b) s = .next (rxHunt b s) := by
  simp only [exec, execRxByte, hs]

/-- Settles O16: `rxHunt` writes its two outcomes as updates of the state. -/
theorem huntSeeksTheFlag : Obligations.HuntSeeksTheFlag := by
  unfold Obligations.HuntSeeksTheFlag
  intro b s hs
  rw [exec_rxByte_of_hunt hs]
  rfl

/-! ## One RX_BYTE in HEADER (42_deframer_rx.md R183, R184) -/

theorem exec_rxByte_of_header {s : State} (hs : s.rxPhase = .header) (b : Byte) :
    exec (.rxByte b) s = rxHeader b s := by
  simp only [exec, execRxByte, hs]

/-- A byte before the seventh is only collected. -/
theorem rxHeader_of_length_ne {s : State} (b : Byte) (hlen : s.rxBuf.length ≠ 6) :
    rxHeader b s = .next (s.setRx .header (s.rxBuf ++ [b]) s.rxNeed) := by
  have hmore : (s.rxBuf ++ [b]).length ≠ 7 := by
    rw [List.length_append, List.length_singleton]
    omega
  exact if_neg hmore

/-- The seventh byte completes the header, which is checked. -/
theorem rxHeader_of_length_eq {s : State} (b : Byte) (hlen : s.rxBuf.length = 6) :
    rxHeader b s = rxCheckHeader (s.setRx .header (s.rxBuf ++ [b]) s.rxNeed) := by
  have hlast : (s.rxBuf ++ [b]).length = 7 := by
    rw [List.length_append, List.length_singleton, hlen]
  exact if_pos hlast

/-- The header check of a buffer that holds a header: it always answers, by R184's four outcomes in order. -/
theorem rxCheckHeader_of_headerAt {s : State} {h : Header} (hbuf : headerAt s.rxBuf = some h) :
    rxCheckHeader s = .next (
      if hcsOk h = false then rxRestart (s.out (.garbage 7))
      else if s.cfg.mtu < h.length then raiseViolation .oversize (rxRestart (s.out (.garbage 7)))
      else if h.length = 0 then dispatch h.addr h.control [] false (rxRestart s)
      else s.setRx .body s.rxBuf (h.length + 2)) := by
  simp only [rxCheckHeader, hbuf, apply_ite Host.Outcome.next]

/-- Settles O17: a byte before the seventh is collected; with the seventh the buffer holds a whole header, whose
check is read in the numbers of its bytes. -/
theorem headerCheckOrder : Obligations.HeaderCheckOrder := by
  unfold Obligations.HeaderCheckOrder
  intro b s hs
  rw [exec_rxByte_of_header hs]
  constructor
  · intro hlen
    rw [rxHeader_of_length_ne b hlen, ← hs]
    rfl
  · intro f a l0 l1 c h0 hbuf L s0
    have hlen : s.rxBuf.length = 6 := by rw [hbuf]; rfl
    have hfull : headerAt (s.setRx .header (s.rxBuf ++ [b]) s.rxNeed).rxBuf = some ⟨f, a, l0, l1, c, h0, b⟩ := by
      rw [State.setRx_rxBuf, hbuf]
      rfl
    rw [rxHeader_of_length_eq b hlen, rxCheckHeader_of_headerAt hfull, header_length_eq]
    simp only [hcsOk_eq_false_iff]
    rfl

/-! ## One RX_BYTE in BODY (42_deframer_rx.md R185, R186) -/

theorem exec_rxByte_of_body {s : State} (hs : s.rxPhase = .body) (b : Byte) :
    exec (.rxByte b) s = rxBody b s := by
  simp only [exec, execRxByte, hs]

/-- A byte before the last expected one is only collected. -/
theorem rxBody_of_need {s : State} (b : Byte) {n : Nat} (hneed : s.rxNeed = n + 2) :
    rxBody b s = .next (s.setRx .body (s.rxBuf ++ [b]) (n + 1)) := by
  simp only [rxBody, hneed, Nat.add_one_ne_zero, if_false]

/-- The last expected byte completes the frame, whose payload is checked. -/
theorem rxBody_of_last {s : State} (b : Byte) (hneed : s.rxNeed = 1) :
    rxBody b s = rxCheckPayload (s.setRx .body (s.rxBuf ++ [b]) 0) := by
  simp only [rxBody, hneed, if_true]

/-- The payload check of a buffer that holds a header, the payload it announces and an FCS: the payload is cut out
again by the header's length field. -/
theorem rxCheckPayload_of_frame {s : State} {H P : Bytes} {h : Header} {f0 f1 : Byte}
    (hbuf : s.rxBuf = H ++ (P ++ [f0, f1])) (hH : H.length = 7) (hhead : headerAt s.rxBuf = some h)
    (hP : P.length = h.length) :
    rxCheckPayload s = .next (rxFrameDone h P (!fcsOk P f0 f1) s) := by
  have hrest : s.rxBuf.drop 7 = P ++ [f0, f1] := by rw [hbuf, List.drop_left' hH]
  simp only [rxCheckPayload, hhead, hrest, List.drop_left' hP, List.take_left' hP]

/-- A frame is dispatched either way; one whose FCS fails is announced first and marked corrupt. -/
theorem rxFrameDone_eq (h : Header) (P : Bytes) (f0 f1 : Byte) (s : State) :
    rxFrameDone h P (!fcsOk P f0 f1) s =
      if crc16 P = BitVec.ofNat 16 (f0.toNat + 256 * f1.toNat) then dispatch h.addr h.control P false (rxRestart s)
      else dispatch h.addr h.control P true ((rxRestart s).out (.frameCorrupt h.addr)) := by
  by_cases hok : fcsOk P f0 f1 = true
  · rw [if_pos ((fcsOk_eq_true_iff P f0 f1).mp hok), hok]
    rfl
  · rw [if_neg (mt (fcsOk_eq_true_iff P f0 f1).mpr hok), Bool.eq_false_iff.mpr hok]
    rfl

/-- Settles O18: a byte before the last is collected; with the last the buffer holds a header, the payload
of its length and the FCS. -/
theorem bodyCollectsThenChecks : Obligations.BodyCollectsThenChecks := by
  unfold Obligations.BodyCollectsThenChecks
  intro b s hs
  rw [exec_rxByte_of_body hs]
  constructor
  · intro n hneed
    rw [rxBody_of_need b hneed, ← hs]
    rfl
  · intro f a l0 l1 c h0 h1 P f0 hneed hbuf hP s0
    have hfull : (s.setRx .body (s.rxBuf ++ [b]) 0).rxBuf = [f, a, l0, l1, c, h0, h1] ++ (P ++ [f0, b]) := by
      rw [State.setRx_rxBuf, hbuf, List.append_assoc, List.append_assoc]
      rfl
    have hhead : headerAt (s.setRx .body (s.rxBuf ++ [b]) 0).rxBuf = some ⟨f, a, l0, l1, c, h0, h1⟩ := by
      rw [hfull]
      rfl
    have hlen : P.length = Header.length ⟨f, a, l0, l1, c, h0, h1⟩ := by rw [hP, header_length_eq]
    rw [rxBody_of_last b hneed, rxCheckPayload_of_frame hfull rfl hhead hlen, rxFrameDone_eq]
    rfl

end Sys2Proof
end

section
/-! SUPPORT. Frames that pass the checks of dispatch: which ones do, and what the receive rules of the I-frame and the
U-Ack then make of the state (43_frame_dispatch.md R210 to R218, R225, R226). -/

namespace Sys2Proof

open Machine

/-! ## Passing the checks of dispatch (43_frame_dispatch.md R210 to R212, R221) -/

/-- A frame passes if it fails none of the four checks. -/
theorem frameViolation_eq_none_iff (k : FrameKind) (a : Byte) (P : Bytes) :
    frameViolation k a P = none ↔
      k ≠ .unknown ∧ (carriesPayload k = true ∨ P = []) ∧ a ≠ 15 ∧ (k = .ui → a = 0) := by
  unfold frameViolation
  split
  case isTrue hunknown => exact iff_of_false nofun fun ⟨hknown, _⟩ => hknown hunknown
  case isFalse hknown =>
    split
    case isTrue hmalformed =>
      obtain ⟨hcarries, hP⟩ := hmalformed
      exact iff_of_false nofun fun ⟨_, hpayload, _⟩ => hpayload.elim (ne_true_of_eq_false hcarries) hP
    case isFalse hformed =>
      have hpayload : carriesPayload k = true ∨ P = [] := by
        rw [Decidable.not_and_iff_not_or_not, Bool.not_eq_false, Decidable.not_not] at hformed
        exact hformed
      split
      case isTrue hreserved => exact iff_of_false nofun fun ⟨_, _, hfree, _⟩ => hfree hreserved
      case isFalse hfree =>
        split
        case isTrue hui =>
          obtain ⟨hkind, haddr⟩ := hui
          exact iff_of_false nofun fun ⟨_, _, _, hzero⟩ => haddr (hzero hkind)
        case isFalse haddr =>
          rw [not_and, Decidable.not_not] at haddr
          exact iff_of_true rfl ⟨hknown, hpayload, hfree, haddr⟩

theorem exec_iFrame_of_addr_ne {f : RxFrame} (ha : f.addr ≠ 15) (n A : Seq) (pf : Bool) (s : State) :
    exec (.iFrame f n pf A) s = .next (rxI f.addr n A f.payload f.corrupt s) := by
  have hpass : frameViolation .i f.addr f.payload = none :=
    (frameViolation_eq_none_iff _ _ _).mpr ⟨nofun, .inl rfl, ha, nofun⟩
  simp only [exec, execI, receiveI, hpass]

/-- A kind without a payload, other than UNKNOWN, passes at every address but the reserved one. -/
theorem frameViolation_of_no_payload {k : FrameKind} {f : RxFrame} (hknown : k ≠ .unknown) (hui : k ≠ .ui)
    (ha : f.addr ≠ 15) (hP : f.payload = []) : frameViolation k f.addr f.payload = none :=
  (frameViolation_eq_none_iff _ _ _).mpr ⟨hknown, .inr hP, ha, fun h => absurd h hui⟩

theorem exec_rr_of_addr_ne {f : RxFrame} (ha : f.addr ≠ 15) (hP : f.payload = []) (A : Seq) (pf : Bool) (s : State) :
    exec (.rr f pf A) s = .next (rxRR f.addr A s) := by
  have hpass := frameViolation_of_no_payload (k := .rr) nofun nofun ha hP
  simp only [exec, execRr, receiveRR, hpass]

theorem exec_rej_of_addr_ne {f : RxFrame} (ha : f.addr ≠ 15) (hP : f.payload = []) (A : Seq) (pf : Bool) (s : State) :
    exec (.rej f pf A) s = .next (rxREJ f.addr A s) := by
  have hpass := frameViolation_of_no_payload (k := .rej) nofun nofun ha hP
  simp only [exec, execRej, receiveREJ, hpass]

theorem exec_upf_of_addr_ne {f : RxFrame} (ha : f.addr ≠ 15) (hP : f.payload = []) (s : State) :
    exec (.upf f) s = .next (s.out (.rxDrop f.addr .ignored)) := by
  have hpass := frameViolation_of_no_payload (k := .upf) nofun nofun ha hP
  simp only [exec, execUpf, receiveUPF, hpass]

theorem exec_uack_of_addr_ne {f : RxFrame} (ha : f.addr ≠ 15) (hP : f.payload = []) (s : State) :
    exec (.uack f) s = .next (rxUACK f.addr s) := by
  have hpass := frameViolation_of_no_payload (k := .uack) nofun nofun ha hP
  simp only [exec, execUack, receiveUACK, hpass]

/-- Settles O31: a U-PF that passes the checks of dispatch is announced as ignored. -/
theorem uPollFinalIsIgnored : Obligations.UPollFinalIsIgnored := by
  unfold Obligations.UPollFinalIsIgnored
  exact fun f s ha hP => exec_upf_of_addr_ne ha hP s

/-! ## Admissible frames (43_frame_dispatch.md R213) -/

theorem openReady_eq_true_iff (s : State) (e : Byte) :
    openReady s e = true ↔ (s.ep e).state = .opened ∧ (s.ep e).awaitingUack = false := by
  rw [openReady, Bool.and_eq_true, beq_iff_eq, Bool.not_eq_true']

theorem openReady_eq_false_iff (s : State) (e : Byte) :
    openReady s e = false ↔ (s.ep e).state ≠ .opened ∨ (s.ep e).awaitingUack = true := by
  rw [← Bool.not_eq_true, openReady_eq_true_iff, Decidable.not_and_iff_not_or_not, Bool.not_eq_false]

theorem rxI_of_not_ready {s : State} {e : Byte} (h : openReady s e = false) (n A : Seq) (P : Bytes) (corrupt : Bool) :
    rxI e n A P corrupt s = s.out (.rxDrop e .notOpen) := if_pos h

theorem rxI_of_ready {s : State} {e : Byte} (h : openReady s e = true) (n A : Seq) (P : Bytes) (corrupt : Bool) :
    rxI e n A P corrupt s = processAck e A (rxClassified e n P corrupt s) := if_neg (ne_false_of_eq_true h)

theorem rxRR_of_not_ready {s : State} {e : Byte} (h : openReady s e = false) (A : Seq) :
    rxRR e A s = s.out (.rxDrop e .notOpen) := if_pos h

theorem rxREJ_of_not_ready {s : State} {e : Byte} (h : openReady s e = false) (A : Seq) :
    rxREJ e A s = s.out (.rxDrop e .notOpen) := if_pos h

/-- Settles O21: each of the three receive rules tests `openReady` first. -/
theorem inadmissibleFramesAreDropped : Obligations.InadmissibleFramesAreDropped := by
  unfold Obligations.InadmissibleFramesAreDropped
  intro f n A pf s ha hclosed t
  have hready : openReady s f.addr = false := (openReady_eq_false_iff s f.addr).mpr hclosed
  refine ⟨?_, fun hP => ⟨?_, ?_⟩⟩
  · rw [exec_iFrame_of_addr_ne ha, rxI_of_not_ready hready]
    rfl
  · rw [exec_rr_of_addr_ne ha hP, rxRR_of_not_ready hready]
    rfl
  · rw [exec_rej_of_addr_ne ha hP, rxREJ_of_not_ready hready]
    rfl

/-- An admissible I-frame is classified, and its ack is processed after that (43_frame_dispatch.md R215). -/
theorem exec_iFrame_of_ready {f : RxFrame} {s : State} (ha : f.addr ≠ 15) (hopen : (s.ep f.addr).state = .opened)
    (hwait : (s.ep f.addr).awaitingUack = false) (n A : Seq) (pf : Bool) :
    exec (.iFrame f n pf A) s = .next (processAck f.addr A (rxClassified f.addr n f.payload f.corrupt s)) := by
  rw [exec_iFrame_of_addr_ne ha, rxI_of_ready ((openReady_eq_true_iff s f.addr).mpr ⟨hopen, hwait⟩)]

/-! ## The classification of a sequence number (43_frame_dispatch.md R215 to R218) -/

theorem classify_self (n : Seq) : classify n n = .inOrder := by
  rw [classify, BitVec.sub_self, if_pos BitVec.toNat_zero]

theorem classify_of_ahead {n expected : Seq} (h1 : 1 ≤ (n - expected).toNat) (h3 : (n - expected).toNat ≤ 3) :
    classify n expected = .gap := by
  rw [classify, if_neg (Nat.one_le_iff_ne_zero.mp h1), if_pos h3]

theorem classify_of_behind {n expected : Seq} (h4 : 4 ≤ (n - expected).toNat) : classify n expected = .duplicate := by
  rw [classify, if_neg (by omega), if_neg (by omega)]

theorem rxClassified_of_corrupt (e : Byte) (n : Seq) (P : Bytes) (s : State) :
    rxClassified e n P true s = noteAckSent e (sendREJ e (s.out (.rxDrop e .corrupt))) := rfl

theorem rxClassified_of_inOrder {s : State} {e : Byte} {n : Seq} (h : classify n (s.ep e).expectedRx = .inOrder)
    (P : Bytes) : rxClassified e n P false s = rxInOrder e P s := by
  simp only [rxClassified, h, Bool.false_eq_true, if_false]

theorem rxClassified_of_gap {s : State} {e : Byte} {n : Seq} (h : classify n (s.ep e).expectedRx = .gap)
    (P : Bytes) : rxClassified e n P false s = noteAckSent e (sendREJ e (s.out (.rxDrop e .gap))) := by
  simp only [rxClassified, h, Bool.false_eq_true, if_false]

theorem rxClassified_of_duplicate {s : State} {e : Byte} {n : Seq}
    (h : classify n (s.ep e).expectedRx = .duplicate) (P : Bytes) :
    rxClassified e n P false s = noteAckSent e (sendRR e (s.out (.rxDrop e .duplicate))) := by
  simp only [rxClassified, h, Bool.false_eq_true, if_false]

/-! ## An I-frame that is not accepted (43_frame_dispatch.md R214, R217, R218) -/

theorem ctrlS_rej (ack : Seq) : ctrlS functionREJ ack false = 0x90 ||| ack.setWidth 8 := rfl

theorem ctrlS_rr (ack : Seq) : ctrlS functionRR ack false = 0x80 ||| ack.setWidth 8 := rfl

/-- The state after an I-frame is dropped for `why` and answered by an S-frame: `ctrl` is that frame's control byte
with ack 0, and the answer carries the pending ack. -/
def droppedAndAnswered (e ctrl : Byte) (why : DropReason) (s : State) : State :=
  { s.setEp e { s.ep e with ackPending := false, ackTimer := Timer.off } with
    txQueue := s.txQueue ++ [frameBytes e (ctrl ||| (s.ep e).expectedRx.setWidth 8) []]
    output := s.output ++ [.rxDrop e why] }

theorem noteAckSent_sendREJ_out (e : Byte) (why : DropReason) (s : State) :
    noteAckSent e (sendREJ e (s.out (.rxDrop e why))) = droppedAndAnswered e 0x90 why s := by
  rw [noteAckSent_eq, sendREJ, ctrlS_rej]
  rfl

theorem noteAckSent_sendRR_out (e : Byte) (why : DropReason) (s : State) :
    noteAckSent e (sendRR e (s.out (.rxDrop e why))) = droppedAndAnswered e 0x80 why s := by
  rw [noteAckSent_eq, sendRR, ctrlS_rr]
  rfl

/-- Settles O23: an admissible I-frame is classified as corrupt, gap or duplicate, and each of these answers. -/
theorem unacceptedFramesAreAnswered : Obligations.UnacceptedFramesAreAnswered := by
  unfold Obligations.UnacceptedFramesAreAnswered
  intro f n A pf s e x dist answered ha hopen hwait
  rw [exec_iFrame_of_ready ha hopen hwait]
  refine ⟨0, 0, fun hcorrupt => ?_, fun hintact h1 h3 => ?_, fun hintact h4 => ?_⟩
  · rw [hcorrupt, rxClassified_of_corrupt, noteAckSent_sendREJ_out]
    rfl
  · rw [hintact, rxClassified_of_gap (classify_of_ahead h1 h3), noteAckSent_sendREJ_out]
    rfl
  · rw [hintact, rxClassified_of_duplicate (classify_of_behind h4), noteAckSent_sendRR_out]
    rfl

/-! ## An in-order I-frame (43_frame_dispatch.md R216) -/

theorem rxInOrder_of_full {s : State} {e : Byte} (hfull : s.cfg.rxQueueCap ≤ (s.ep e).rxQueue.length) (P : Bytes) :
    rxInOrder e P s = s.out (.rxDrop e .rxFull) := if_pos hfull

/-- The record after an in-order payload is accepted, its ack timer aside. -/
def Machine.Endpoint.received (P : Bytes) (x : Endpoint) : Endpoint :=
  { x with rxQueue := x.rxQueue ++ [P], expectedRx := x.expectedRx + 1, ackPending := true }

/-- A rewrite of a record and an output event do not meet. -/
theorem modEp_out (s : State) (e : Byte) (g : Endpoint → Endpoint) (ev : Event) :
    (s.out ev).modEp e g = (s.modEp e g).out ev := rfl

/-- With room in the RX queue: the payload is delivered, and the ack timer armed unless it runs. -/
theorem rxInOrder_of_room {s : State} {e : Byte} (hroom : ¬s.cfg.rxQueueCap ≤ (s.ep e).rxQueue.length) (P : Bytes) :
    rxInOrder e P s =
      let s' := (s.modEp e (Endpoint.received P)).out (.delivered e (some (s.ep e).expectedRx) P.length)
      if (s.ep e).ackTimer.armed then s' else armAck e s.cfg.ackDelay s' := by
  simp only [rxInOrder, if_neg hroom, modEp_out, State.modEp_modEp, State.out_ep, State.modEp_ep_self]
  rfl

/-- Settles O22: the frame is in order, and the RX queue is full, or the ack timer runs, or it is armed. -/
theorem inOrderFrameIsDelivered : Obligations.InOrderFrameIsDelivered := by
  unfold Obligations.InOrderFrameIsDelivered
  intro f n A pf s e x ha hopen hwait hintact hn
  have hclass : classify n (s.ep f.addr).expectedRx = .inOrder := hn ▸ classify_self n
  rw [exec_iFrame_of_ready ha hopen hwait, hintact, rxClassified_of_inOrder hclass]
  by_cases hfull : s.cfg.rxQueueCap ≤ x.rxQueue.length
  · rw [rxInOrder_of_full hfull, if_pos hfull]
    rfl
  · rw [rxInOrder_of_room hfull, if_neg hfull, hn]
    cases hrun : (s.ep f.addr).ackTimer.armed with
    | true =>
      rw [if_pos rfl]
      rfl
    | false =>
      rw [if_neg Bool.false_ne_true, armAck, modEp_out, State.modEp_modEp]
      rfl

/-! ## A U-Ack (43_frame_dispatch.md R225) -/

theorem rxUACK_of_awaiting {s : State} {e : Byte}
    (h : (s.ep e).state = .opened ∧ (s.ep e).awaitingUack = true) :
    rxUACK e s = drainPending e ((s.modEp e fun x => { x with awaitingUack := false }).out (.opened e)) := if_pos h

theorem rxUACK_of_closing {s : State} {e : Byte} (h : (s.ep e).state = .closing) :
    rxUACK e s = (s.modEp e fun x => { x with state := .closed }).out (.epState e .closed) := by
  simp only [rxUACK, h, reduceCtorEq, false_and, if_false, if_true]

theorem rxUACK_of_not_waiting {s : State} {e : Byte}
    (hopen : ¬((s.ep e).state = .opened ∧ (s.ep e).awaitingUack = true)) (hclosing : (s.ep e).state ≠ .closing) :
    rxUACK e s = s.out (.rxDrop e .ignored) := by
  rw [rxUACK, if_neg hopen, if_neg hclosing]

/-- Settles O30: an Open endpoint that waits, a Closing one, and any other, each by its equation. -/
theorem uAckCompletesReset : Obligations.UAckCompletesReset := by
  unfold Obligations.UAckCompletesReset
  intro f s e x ha hP
  rw [exec_uack_of_addr_ne ha hP]
  by_cases hopen : x.state = .opened ∧ x.awaitingUack = true
  · rw [rxUACK_of_awaiting hopen, if_pos hopen]
    rfl
  · rw [if_neg hopen]
    by_cases hclosing : x.state = .closing
    · rw [rxUACK_of_closing hclosing, if_pos hclosing]
      rfl
    · rw [rxUACK_of_not_waiting hopen hclosing, if_neg hclosing]
      rfl

end Sys2Proof
end

section
/-! SUPPORT. The ARQ sequencer: the six answers of WRITE, an acknowledgement applied by an RR, and a TICK that fires one
timer (44_arq.md R255 to R263, R270, R271, R280). -/

namespace Sys2Proof

open Machine

/-! ## WRITE (44_arq.md R255, R257) -/

theorem ctrlI_pf (n ack : Seq) : ctrlI n ack true = 0x08 ||| (n.setWidth 8 <<< 4) ||| ack.setWidth 8 :=
  congrArg (· ||| ack.setWidth 8) (BitVec.or_comm (n.setWidth 8 <<< 4) 0x08)

theorem gateOk_eq_true_iff (s : State) (e : Byte) :
    gateOk s e = true ↔ (s.ep e).encrypted = false ∨ s.session = .initialized := by
  rw [gateOk, Bool.or_eq_true, Bool.not_eq_true', beq_iff_eq]

theorem canSend_eq_true_iff (s : State) (e : Byte) :
    canSend s e = true ↔ (s.ep e).state = .opened ∧ (s.ep e).awaitingUack = false ∧
      popcount (s.ep e).outstanding < (s.ep e).window.toNat ∧ gateOk s e = true := by
  simp only [canSend, Bool.and_eq_true, beq_iff_eq, Bool.not_eq_true', decide_eq_true_eq, and_assoc]

/-- On an Open endpoint with its gate open, WRITE sends unless it must wait: for a U-Ack, for the window, or behind a
pending write. -/
theorem canSend_and_isEmpty_eq_true_iff {s : State} {e : Byte} (hopen : (s.ep e).state = .opened)
    (hgate : gateOk s e = true) :
    (canSend s e && (s.ep e).pending.isEmpty) = true ↔
      (s.ep e).awaitingUack = false ∧ popcount (s.ep e).outstanding < (s.ep e).window.toNat ∧
        (s.ep e).pending = [] := by
  rw [Bool.and_eq_true, canSend_eq_true_iff, List.isEmpty_iff]
  simp only [hopen, hgate, true_and, and_true, and_assoc]

/-- `send_new` as one write of the record: the frame is queued and stored, the ack counts as sent, and the rtx timer
is armed unless it runs. -/
theorem sendNew_eq (e : Byte) (P : Bytes) (s : State) :
    let x := s.ep e
    let F := iFrameBytes s e x.nextTx P
    sendNew e P s =
      { s.setEp e { x.afterSend F s.now with
          rtxTimer := if x.rtxTimer.armed then x.rtxTimer else s.armedTimer x.rto } with
        txQueue := s.txQueue ++ [F]
        armCounter := if x.rtxTimer.armed then s.armCounter else s.armCounter + 1 } := by
  intro x F
  cases hrun : (s.ep e).rtxTimer.armed with
  | true => exact sendNew_of_armed e P s hrun
  | false =>
    rw [sendNew_of_idle e P s hrun, armRtx, State.modEp_modEp]
    rfl

/-- Settles O43: the checks of WRITE are the model's in the same order, and `sendNew_eq` gives the frame sent. -/
theorem writeCommand : Obligations.WriteCommand := by
  unfold Obligations.WriteCommand
  intro e P s x answer gate F
  have hF : F = iFrameBytes s e x.nextTx P := by rw [iFrameBytes, ctrlI_pf]
  refine ⟨0, 0, congrArg Host.Outcome.next ?_⟩
  by_cases hlarge : s.cfg.mtu < P.length
  · rw [if_pos hlarge, if_pos hlarge]
    rfl
  rw [if_neg hlarge, if_neg hlarge]
  by_cases hclosed : x.state ≠ .opened
  · rw [if_pos hclosed, if_pos hclosed]
    rfl
  rw [if_neg hclosed, if_neg hclosed]
  by_cases hgate : gateOk s e = true
  case neg =>
    rw [if_pos (Bool.eq_false_iff.mpr hgate), if_pos (mt (gateOk_eq_true_iff s e).mpr hgate)]
    rfl
  rw [if_neg (ne_false_of_eq_true hgate), if_neg (not_not_intro ((gateOk_eq_true_iff s e).mp hgate))]
  have hsend := canSend_and_isEmpty_eq_true_iff (Decidable.not_not.mp hclosed) hgate
  by_cases hfree : x.awaitingUack = false ∧ popcount x.outstanding < x.window.toNat ∧ x.pending = []
  · rw [if_pos (hsend.mpr hfree), if_pos hfree, sendNew_eq, hF]
    rfl
  rw [if_neg (mt hsend.mp hfree), if_neg hfree]
  by_cases hfull : s.cfg.pendingCap ≤ x.pending.length
  · rw [if_pos hfull, if_pos hfull]
    rfl
  · rw [if_neg hfull, if_neg hfull]
    rfl

/-! ## An acknowledgement (44_arq.md R260) -/

theorem ackBase_eq_getD (x : Endpoint) : ackBase x = (x.rtxQueue.head?.map (·.seq)).getD x.nextTx := by
  unfold ackBase
  cases x.rtxQueue with
  | nil => rfl
  | cons E l => rfl

theorem ackValid_eq_false_iff (x : Endpoint) (A : Seq) :
    ackValid x A = false ↔ x.rtxQueue.length < ackCount x A := by
  rw [ackValid, decide_eq_false_iff_not, Nat.not_le]

theorem rxRR_of_ready {s : State} {e : Byte} (h : openReady s e = true) (A : Seq) : rxRR e A s = processAck e A s :=
  if_neg (ne_false_of_eq_true h)

/-- An admissible RR does nothing but process its ack (43_frame_dispatch.md R219). -/
theorem exec_rr_of_ready {f : RxFrame} {s : State} (ha : f.addr ≠ 15) (hP : f.payload = [])
    (hopen : (s.ep f.addr).state = .opened) (hwait : (s.ep f.addr).awaitingUack = false) (A : Seq) (pf : Bool) :
    exec (.rr f pf A) s = .next (processAck f.addr A s) := by
  rw [exec_rr_of_addr_ne ha hP, rxRR_of_ready ((openReady_eq_true_iff s f.addr).mpr ⟨hopen, hwait⟩)]

/-- The `k` oldest frames acknowledged and the rtx timer restarted, as one write of the record: the timer is cancelled
if these were all the frames stored. -/
theorem restartRtx_acked {s : State} {e : Byte} {k : Nat} (hk : k ≤ (s.ep e).rtxQueue.length) :
    let x := s.ep e
    restartRtx e (s.modEp e (Endpoint.acked s.cfg.rtoInit k)) =
      { s.setEp e { x.acked s.cfg.rtoInit k with
          rtxTimer := if x.rtxQueue.length = k then Timer.off else s.armedTimer s.cfg.rtoInit } with
        armCounter := if x.rtxQueue.length = k then s.armCounter else s.armCounter + 1 } := by
  intro x
  have hleft : ((s.modEp e (Endpoint.acked s.cfg.rtoInit k)).ep e).rtxQueue = x.rtxQueue.drop k := by
    rw [State.modEp_ep_self]
    rfl
  rcases restartRtx_cases e (s.modEp e (Endpoint.acked s.cfg.rtoInit k)) with ⟨hnone, hcancel⟩ | ⟨hsome, hrestart⟩
  · rw [hleft, List.drop_eq_nil_iff] at hnone
    have hall : x.rtxQueue.length = k := Nat.le_antisymm hnone hk
    rw [hcancel, cancelRtx, State.modEp_modEp, if_pos hall, if_pos hall]
    rfl
  · rw [hleft, ne_eq, List.drop_eq_nil_iff] at hsome
    have hrest : x.rtxQueue.length ≠ k := fun hall => hsome (Nat.le_of_eq hall)
    rw [hrestart, State.modEp_ep_self, armRtx, State.modEp_modEp, if_neg hrest, if_neg hrest]
    rfl

/-- Settles O24: the three cases of `processAck`, with the record of the third by `restartRtx_acked`. -/
theorem rrAcknowledges : Obligations.RrAcknowledges := by
  unfold Obligations.RrAcknowledges
  intro f pf A s e x base k ha hP hopen hwait
  have hk : ackCount (s.ep f.addr) A = k := by rw [ackCount, ackBase_eq_getD]
  refine ⟨0, 0, ?_⟩
  rw [exec_rr_of_ready ha hP hopen hwait]
  rcases processAck_cases f.addr A s with ⟨hinvalid, hack⟩ | ⟨hvalid, hzero, hack⟩ | ⟨hvalid, hpos, hack⟩
  · rw [ackValid_eq_false_iff, hk] at hinvalid
    rw [hack, if_pos hinvalid]
    rfl
  · rw [← Bool.not_eq_false, ackValid_eq_false_iff, hk] at hvalid
    rw [hk] at hzero
    rw [hack, if_neg hvalid, if_pos hzero]
  · rw [← Bool.not_eq_false, ackValid_eq_false_iff, hk] at hvalid
    rw [hk] at hpos
    rw [hack, if_neg hvalid, if_neg hpos, hk, restartRtx_acked (Nat.le_of_not_lt hvalid)]
    rfl

/-! ## A TICK that fires one timer (44_arq.md R280) -/

theorem isDue_eq_true_iff (now : Nat) (t : Timer) : isDue now t = true ↔ t.armed = true ∧ t.deadline ≤ now := by
  rw [isDue, Bool.and_eq_true, decide_eq_true_eq]

theorem isDue_eq_false_iff (now : Nat) (t : Timer) :
    isDue now t = false ↔ (t.armed = true → now < t.deadline) := by
  rw [← Bool.not_eq_true, isDue_eq_true_iff, not_and, Nat.not_le]

theorem isDue_off (now : Nat) : isDue now Timer.off = false := rfl

theorem nextDue_eq_none {s : State} (h : ∀ t, isDue s.now (timerOf s t) = false) : nextDue s = none := by
  cases hnext : nextDue s with
  | none => rfl
  | some t =>
    have ⟨hdue, _⟩ := firesNext_of_nextDue hnext
    exact absurd hdue (ne_true_of_eq_false (h t))

/-- The only due timer is the next to fire. -/
theorem nextDue_eq_some {s : State} {t : TimerRef} (hdue : isDue s.now (timerOf s t) = true)
    (honly : ∀ u, u ≠ t → isDue s.now (timerOf s u) = false) : nextDue s = some t := by
  have hspec := nextDue_spec s
  cases hnext : nextDue s with
  | none =>
    rw [hnext] at hspec
    exact absurd hdue (ne_true_of_eq_false (hspec t))
  | some u =>
    have ⟨hu, _⟩ := firesNext_of_nextDue hnext
    by_cases hut : u = t
    · rw [hut]
    · exact absurd hu (ne_true_of_eq_false (honly u hut))

/-- A TICK with one timer due runs the handler of that timer, if this leaves neither timer of its endpoint due. -/
theorem exec_tick_of_one_due {s s' : State} {t : TimerRef} {y : Endpoint} (hdue : dueAtTick s t)
    (honly : ∀ u, u ≠ t → (timerOf s u).armed = true → s.now + 1 < (timerOf s u).deadline)
    (hfire : fireTimer t (s.setNow (s.now + 1)) = s') (hep : s'.ep t.ep = y)
    (hrtx : isDue (s.now + 1) y.rtxTimer = false) (hack : isDue (s.now + 1) y.ackTimer = false) :
    exec .tick s = .next s' := by
  have hothers : ∀ u, u ≠ t → isDue (s.now + 1) (timerOf s u) = false := fun u hu =>
    (isDue_eq_false_iff _ _).mpr (honly u hu)
  have hnext : nextDue (s.setNow (s.now + 1)) = some t :=
    nextDue_eq_some ((isDue_eq_true_iff _ _).mpr hdue) hothers
  have htouches := fireTimer_touches t (s.setNow (s.now + 1))
  rw [hfire] at htouches
  obtain ⟨-, hnow, -, -, -, -, -, -, -, hframe, -, -⟩ := htouches.fields
  have hnone : nextDue s' = none := by
    refine nextDue_eq_none fun u => ?_
    rw [hnow, timerOf]
    by_cases hu : u.ep = t.ep
    · rw [hu, hep]
      cases u.kind with
      | rtx => exact hrtx
      | ack => exact hack
    · rw [hframe u.ep hu]
      exact hothers u fun h => hu (congrArg TimerRef.ep h)
  obtain ⟨n, hn⟩ : ∃ n, tickRounds s.cfg = n + 1 := Nat.exists_eq_succ_of_ne_zero (by rw [tickRounds]; omega)
  rw [exec, execTick, hn, fireDue_of_some n _ t hnext, hfire, fireDue_of_none n _ hnone]

/-! ## The ack timer (44_arq.md R263) -/

/-- A rewrite of a record and a frame queued do not meet. -/
theorem modEp_emitFrame (s : State) (e : Byte) (g : Endpoint → Endpoint) (F : Bytes) :
    (s.emitFrame F).modEp e g = (s.modEp e g).emitFrame F := rfl

/-- The ack timer fires: it is cancelled, and an RR goes out if an ack is owed. -/
theorem fireTimer_ack (e : Byte) (s : State) :
    let x := s.ep e
    fireTimer ⟨e, .ack⟩ s =
      if x.state = .opened ∧ x.ackPending = true then
        { s.setEp e { x with ackPending := false, ackTimer := Timer.off } with
          txQueue := s.txQueue ++ [frameBytes e (0x80 ||| x.expectedRx.setWidth 8) []] }
      else s.setEp e { x with ackTimer := Timer.off } := by
  intro x
  have hep : (cancelAck e s).ep e = { x with ackTimer := Timer.off } := State.modEp_ep_self s e _
  change ackExpire e (cancelAck e s) = _
  rcases ackExpire_cases e (cancelAck e s) with ⟨hopen, howed, hexpire⟩ | ⟨hidle, hexpire⟩
  · rw [hep] at hopen howed
    rw [if_pos ⟨hopen, howed⟩, hexpire, noteAckSent_eq, sendRR, hep, ctrlS_rr, modEp_emitFrame, cancelAck,
      State.modEp_modEp]
    rfl
  · rw [hep] at hidle
    rw [if_neg hidle, hexpire]
    rfl

/-- Settles O49: the ack timer is the one due, and its handler leaves the rtx timer as it is. -/
theorem delayedAckIsSent : Obligations.DelayedAckIsSent := by
  unfold Obligations.DelayedAckIsSent
  intro e s x harmed hdue honly
  have hrtx : isDue (s.now + 1) x.rtxTimer = false := (isDue_eq_false_iff _ _).mpr (honly ⟨e, .rtx⟩ nofun)
  have hfire := fireTimer_ack e (s.setNow (s.now + 1))
  refine ⟨0, 0, ?_⟩
  by_cases howed : x.state = .opened ∧ x.ackPending = true
  · rw [if_pos howed]
    exact exec_tick_of_one_due (t := ⟨e, .ack⟩) ⟨harmed, hdue⟩ honly (hfire.trans (if_pos howed))
      (State.setEp_ep_self s e _) hrtx (isDue_off _)
  · rw [if_neg howed]
    exact exec_tick_of_one_due (t := ⟨e, .ack⟩) ⟨harmed, hdue⟩ honly (hfire.trans (if_neg howed))
      (State.setEp_ep_self s e _) hrtx (isDue_off _)

/-! ## The rtx timer (44_arq.md R270 to R272) -/

/-- The record of an endpoint whose rtx timer has expired: the timer is cancelled and the expiry counted. -/
def Machine.Endpoint.expired (x : Endpoint) : Endpoint :=
  { x with retryCount := x.retryCount + 1, rtxTimer := Timer.off }

theorem setEp_modEp (s : State) (e : Byte) (f : Endpoint → Endpoint) (y : Endpoint) :
    (s.modEp e f).setEp e y = s.setEp e y := State.modEp_modEp s e f fun _ => y

theorem setEp_out (s : State) (e : Byte) (y : Endpoint) (ev : Event) :
    (s.out ev).setEp e y = (s.setEp e y).out ev := rfl

/-- Retransmission writes no record. -/
theorem foldl_retransmit_modEp (e : Byte) (l : List RtxEntry) (s : State) (f : Endpoint → Endpoint) :
    l.foldl (retransmit e) (s.modEp e f) = (l.foldl (retransmit e) s).modEp e f := by
  rw [foldl_retransmit, foldl_retransmit]
  rfl

/-- Backing off and sending the oldest frame again, as one write of the record. -/
theorem resendOldest_eq (e : Byte) (s : State) :
    let x := s.ep e
    let rto := min (2 * x.rto) s.cfg.rtoMax
    resendOldest e s =
      { s.setEp e { x with rto := rto, rtxTimer := s.armedTimer rto } with
        armCounter := s.armCounter + 1
        txQueue := s.txQueue ++ (x.rtxQueue.take 1).map (·.frame)
        output := s.output ++ (x.rtxQueue.take 1).map fun E => .retransmit e E.seq } := by
  intro x rto
  have hep : (s.modEp e (Endpoint.backedOff s.cfg.rtoMax)).ep e = { x with rto := rto } := State.modEp_ep_self s e _
  rw [resendOldest, hep, foldl_retransmit_modEp, armRtx, State.modEp_modEp, foldl_retransmit]
  rfl

/-- The rtx timer fires: it is cancelled, the expiry is counted, and the endpoint fails or sends again the
oldest frame, if it holds one. -/
theorem fireTimer_rtx {e : Byte} {s : State} {oldest : List RtxEntry} (hq : (s.ep e).rtxQueue.take 1 = oldest) :
    let x := s.ep e
    let n := x.retryCount + 1
    let rto := min (2 * x.rto) s.cfg.rtoMax
    fireTimer ⟨e, .rtx⟩ s =
      if s.cfg.maxRetries < n then
        { s.setEp e (x.dropped s.cfg.rtoInit (.error .faultNoAck)) with
          output := s.output ++ [.timeout e n, .epState e (.error .faultNoAck)] }
      else
        { s.setEp e { x with retryCount := n, rto := rto, rtxTimer := s.armedTimer rto } with
          armCounter := s.armCounter + 1
          txQueue := s.txQueue ++ oldest.map (·.frame)
          output := s.output ++ .timeout e n :: oldest.map fun E => .retransmit e E.seq } := by
  intro x n rto
  subst hq
  have hcount : ((cancelRtx e s).ep e).retryCount + 1 = n := by rw [cancelRtx, State.modEp_ep_self]
  have hexpired : (cancelRtx e s).modEp e Endpoint.timedOut = s.modEp e Endpoint.expired := by
    rw [cancelRtx, State.modEp_modEp]
    rfl
  change rtxExpire e (cancelRtx e s) = _
  rcases rtxExpire_cases e (cancelRtx e s) with ⟨hspent, hfail⟩ | ⟨hleft, hresend⟩
  · rw [cancelRtx_cfg, hcount] at hspent
    rw [hcount] at hfail
    rw [if_pos hspent, hfail, hexpired, failEndpoint, modEp_out, State.modEp_modEp, State.out, State.out,
      List.append_assoc]
    rfl
  · rw [cancelRtx_cfg, hcount] at hleft
    rw [hcount] at hresend
    have hep : ((s.modEp e Endpoint.expired).out (.timeout e n)).ep e = x.expired := State.modEp_ep_self s e _
    rw [if_neg (Nat.not_lt_of_le hleft), hresend, hexpired, resendOldest_eq, hep, setEp_out,
      setEp_modEp, State.out_output, List.append_assoc]
    rfl

/-- Settles O48: the rtx timer is the one due; the endpoint fails and neither of its timers runs, or the timer is
restarted to expire after this TICK. -/
theorem rtxTimerExpires : Obligations.RtxTimerExpires := by
  unfold Obligations.RtxTimerExpires
  intro e s E l x n rto hq harmed hdue hrto honly
  have hack : isDue (s.now + 1) x.ackTimer = false := (isDue_eq_false_iff _ _).mpr (honly ⟨e, .ack⟩ nofun)
  have holdest : x.rtxQueue.take 1 = [E] := by
    rw [hq]
    rfl
  have hfire := fireTimer_rtx (s := s.setNow (s.now + 1)) holdest
  by_cases hspent : s.cfg.maxRetries < n
  · rw [if_pos hspent]
    exact exec_tick_of_one_due (t := ⟨e, .rtx⟩) ⟨harmed, hdue⟩ honly (hfire.trans (if_pos hspent))
      (State.setEp_ep_self s e _) (isDue_off _) (isDue_off _)
  · have hrestarted : isDue (s.now + 1) ((s.setNow (s.now + 1)).armedTimer rto) = false :=
      (isDue_eq_false_iff _ _).mpr fun _ => Nat.lt_add_of_pos_right hrto
    rw [if_neg hspent]
    exact exec_tick_of_one_due (t := ⟨e, .rtx⟩) ⟨harmed, hdue⟩ honly (hfire.trans (if_neg hspent))
      (State.setEp_ep_self s e _) hrestarted hack

end Sys2Proof
end

section
/-! SUPPORT. The host commands other than WRITE, and the link reset that they share: one equation per case of each
command (45_endpoint_cmds.md R300 to R315). -/

namespace Sys2Proof

open Machine

/-! ## The link reset (45_endpoint_cmds.md R309, R310) -/

/-- The loop of a link reset tells the host, in the order of the ids, what the records before it say. -/
theorem foldl_linkResetEp_output {l : List Byte} (hl : l.Nodup) (s : State) :
    (l.foldl linkResetEp s).output = s.output ++ resetEvents s l := by
  induction l generalizing s with
  | nil => simp [resetEvents]
  | cons e l ih =>
    obtain ⟨hfresh, hl⟩ := List.nodup_cons.mp hl
    have hlater : resetEvents (linkResetEp s e) l = resetEvents s l := by
      rw [resetEvents, resetEvents, List.flatMap_def, List.flatMap_def]
      refine congrArg List.flatten (List.map_congr_left fun a ha => ?_)
      have hae : a ≠ e := fun h => hfresh (h ▸ ha)
      rw [linkResetEp_ep, if_neg hae]
    rw [List.foldl_cons, ih hl, hlater, linkResetEp_output, List.append_assoc]
    rfl

theorem linkResetEndpoints_output (first : Nat) (c : ResetCause) (s : State) :
    (linkResetEndpoints first c s).output = s.output ++ resetEvents s (endpointsFrom first) ++ [.linkReset c] :=
  congrArg (· ++ [Event.linkReset c]) (foldl_linkResetEp_output (endpointsFrom_nodup first) s)

/-- A link reset writes the records, trims the TX queue, clears the violation history and tells the host. -/
theorem linkResetEndpoints_eq (first : Nat) (c : ResetCause) (s : State) :
    linkResetEndpoints first c s =
      { s with
        eps := (linkResetEndpoints first c s).eps
        txQueue := if 0 < s.txPos then s.txQueue.take 1 else []
        violHist := []
        output := s.output ++ resetEvents s (endpointsFrom first) ++ [.linkReset c] } := by
  rw [← linkResetEndpoints_output]
  obtain ⟨eps, output, h⟩ := linkResetEndpoints_frame first c s
  rw [h]

/-- Settles O33: the records by `linkResetEndpoints_ep`, every other field by `linkResetEndpoints_eq`. -/
theorem linkResetProcedure : Obligations.LinkResetProcedure := by
  unfold Obligations.LinkResetProcedure
  refine ⟨fun first cause s => ⟨fun e => ?_, linkResetEndpoints_eq first cause s⟩, fun s => rfl⟩
  rw [linkResetEndpoints_ep, Endpoint.linkReset]
  by_cases hbelow : e.toNat < first
  · rw [if_neg (Nat.not_le_of_lt hbelow), if_pos (.inl hbelow)]
  · rw [if_pos (Nat.le_of_not_lt hbelow)]
    by_cases hclosed : (s.ep e).state = .closed
    · rw [if_pos hclosed, if_pos (.inr hclosed)]
    · rw [if_neg hclosed, if_neg (not_or.mpr ⟨hbelow, hclosed⟩)]
      rfl

/-! ## What OPEN, CLOSE, FAIL and UI_SEND share -/

/-- Two output events in a row are one write of the output. -/
theorem out_out (s : State) (ev ev' : Event) :
    (s.out ev).out ev' = { s with output := s.output ++ [ev, ev'] } := by
  rw [State.out, State.out_output, List.append_assoc]
  rfl

theorem ctrlU_ureset : ctrlU utypeURESET = 0xF1 := rfl

theorem ctrlU_ui : ctrlU utypeUI = 0xC0 := rfl

/-- The link reset that OPEN or CLOSE of endpoint 0 begins with leaves endpoint 0 itself. -/
theorem systemReset_ep_self (e : Byte) (s : State) : (systemReset e s).ep e = s.ep e := by
  unfold systemReset
  split
  case isTrue hzero =>
    rw [linkResetEndpoints_ep, hzero]
    rfl
  case isFalse => rfl

/-! ## OPEN (45_endpoint_cmds.md R300) -/

/-- The refusals of OPEN in their order. -/
theorem openRefusal_eq (e : Byte) (w : BitVec 3) (st : EpState) :
    openRefusal e w st =
      if e = 15 then some .badEndpoint
      else if w = 0 then some .badWindow
      else if st = .opened ∨ st = .closing then some .alreadyOpen
      else if st = .error .securityIncident then some .sticky
      else none := by
  unfold openRefusal
  congr 2
  cases st with
  | error x => cases x <;> rfl
  | closed | opened | closing | connectionLost => rfl

theorem exec_openEp_of_refused {e : Byte} {w : BitVec 3} {s : State} {r : RejectReason}
    (h : openRefusal e w (s.ep e).state = some r) (enc : Bool) :
    exec (.openEp e w enc) s = .next (s.out (.cmdReject (.cmd .opOpen) e r)) := by
  simp only [exec, execOpenEp, h]

theorem exec_openEp_of_accepted {e : Byte} {w : BitVec 3} {s : State}
    (h : openRefusal e w (s.ep e).state = none) (enc : Bool) :
    exec (.openEp e w enc) s =
      .next (((sendURESET e ((systemReset e s).modEp e (Endpoint.openedWith s.cfg.rtoInit e w enc))).out
        (.epState e .opened)).out (.cmdOk .opOpen e)) := by
  simp only [exec, execOpenEp, h]

/-- Endpoints 0 and 14 are never encrypted. -/
theorem openedWith_encrypted (rtoInit : Nat) (e : Byte) (w : BitVec 3) (enc : Bool) (x : Endpoint) :
    (x.openedWith rtoInit e w enc).encrypted = if e = 0 ∨ e = 14 then false else enc := by
  have hsystem : (e == 0 || e == 14) = true ↔ e = 0 ∨ e = 14 := by
    rw [Bool.or_eq_true, beq_iff_eq, beq_iff_eq]
  change (enc && !(e == 0 || e == 14)) = _
  by_cases h : e = 0 ∨ e = 14
  · rw [if_pos h, hsystem.mpr h, Bool.not_true, Bool.and_false]
  · rw [if_neg h, Bool.eq_false_iff.mpr (mt hsystem.mp h), Bool.not_false, Bool.and_true]

/-- Settles O35: the refusals by `openRefusal_eq`; an accepted OPEN writes every field of the record. -/
theorem openCommand : Obligations.OpenCommand := by
  unfold Obligations.OpenCommand
  intro e w enc s st refuse s0
  have hrefusal := openRefusal_eq e w st
  by_cases hep : e = 15
  · rw [if_pos hep] at hrefusal ⊢
    exact exec_openEp_of_refused hrefusal enc
  rw [if_neg hep] at hrefusal ⊢
  by_cases hwindow : w = 0
  · rw [if_pos hwindow] at hrefusal ⊢
    exact exec_openEp_of_refused hrefusal enc
  rw [if_neg hwindow] at hrefusal ⊢
  by_cases hopen : st = .opened ∨ st = .closing
  · rw [if_pos hopen] at hrefusal ⊢
    exact exec_openEp_of_refused hrefusal enc
  rw [if_neg hopen] at hrefusal ⊢
  by_cases hsticky : st = .error .securityIncident
  · rw [if_pos hsticky] at hrefusal ⊢
    exact exec_openEp_of_refused hrefusal enc
  rw [if_neg hsticky] at hrefusal ⊢
  rw [exec_openEp_of_accepted hrefusal, out_out, sendURESET, ctrlU_ureset,
    ← openedWith_encrypted s.cfg.rtoInit e w enc (s0.ep e)]
  rfl

/-! ## CLOSE (45_endpoint_cmds.md R302, R303, R305) -/

/-- A Closed or Closing endpoint, and the sticky error, only answer. -/
theorem exec_closeEp_of_settled {e : Byte} {s : State}
    (h : (s.ep e).state = .closed ∨ (s.ep e).state = .closing ∨ (s.ep e).state = .error .securityIncident) :
    exec (.closeEp e) s = .next (s.out (.cmdOk .opClose e)) := by
  rcases h with h | h | h <;> simp only [exec, execCloseEp, h]

theorem exec_closeEp_of_opened {e : Byte} {s : State} (h : (s.ep e).state = .opened) :
    exec (.closeEp e) s = .next (closeOpened e s) := by
  simp only [exec, execCloseEp, h]

/-- ConnectionLost and the errors that are not sticky are what the other two cases leave. -/
theorem exec_closeEp_of_failed {e : Byte} {s : State}
    (hsettled : ¬((s.ep e).state = .closed ∨ (s.ep e).state = .closing ∨
      (s.ep e).state = .error .securityIncident)) (hopen : (s.ep e).state ≠ .opened) :
    exec (.closeEp e) s = .next (closeFailed e s) := by
  cases hst : (s.ep e).state with
  | closed => exact absurd (.inl hst) hsettled
  | closing => exact absurd (.inr (.inl hst)) hsettled
  | opened => exact absurd hst hopen
  | connectionLost => simp only [exec, execCloseEp, hst]
  | error x =>
    cases x with
    | securityIncident => exact absurd (.inr (.inr hst)) hsettled
    | remoteError | faultNoAck | destUnreach => simp only [exec, execCloseEp, hst]

/-- Settles O36: the states fall into those that only answer, Open, and the rest, each by its equation. -/
theorem closeCommand : Obligations.CloseCommand := by
  unfold Obligations.CloseCommand
  intro e s x s0
  by_cases hsettled : x.state = .closed ∨ x.state = .closing ∨ x.state = .error .securityIncident
  · rw [if_pos hsettled]
    exact exec_closeEp_of_settled hsettled
  rw [if_neg hsettled]
  by_cases hopen : x.state = .opened
  · rw [if_pos hopen, exec_closeEp_of_opened hopen, closeOpened, out_out, sendURESET, ctrlU_ureset, State.modEp,
      systemReset_ep_self]
    rfl
  · rw [if_neg hopen, exec_closeEp_of_failed hsettled hopen, closeFailed, out_out]
    rfl

/-! ## FAIL (45_endpoint_cmds.md R306, R307) -/

/-- Settles O38: the checks of FAIL are the model's in the same order. -/
theorem failCommand : Obligations.FailCommand := by
  unfold Obligations.FailCommand
  intro e cause s x y
  have hy : errorOfCause cause = y := by cases cause <;> rfl
  refine congrArg Host.Outcome.next ?_
  by_cases hep : e = 15
  · rw [if_pos hep, if_pos hep]
    rfl
  rw [if_neg hep, if_neg hep]
  by_cases hsticky : x.state = .error .securityIncident ∧ cause ≠ .securityIncident
  · rw [if_pos hsticky, if_pos hsticky]
    rfl
  · rw [if_neg hsticky, if_neg hsticky, hy, failEndpoint, out_out]
    rfl

/-! ## RX_POP and STATUS (45_endpoint_cmds.md R312, R313) -/

theorem exec_rxPop_of_empty {e : Byte} {s : State} (h : (s.ep e).rxQueue = []) :
    exec (.rxPop e) s = .next (s.out (.rxEmpty e)) := by
  simp only [exec, execRxPop, h]

theorem exec_rxPop_of_cons {e : Byte} {s : State} {P : Bytes} {rest : List Bytes}
    (h : (s.ep e).rxQueue = P :: rest) :
    exec (.rxPop e) s = .next ((s.modEp e fun x => { x with rxQueue := rest }).out (.rxData e P)) := by
  simp only [exec, execRxPop, h]

/-- Settles O39: the RX queue is empty, or its head is the oldest payload. -/
theorem rxPopCommand : Obligations.RxPopCommand := by
  unfold Obligations.RxPopCommand
  intro e s
  cases hq : (s.ep e).rxQueue with
  | nil =>
    rw [exec_rxPop_of_empty hq]
    rfl
  | cons P rest =>
    rw [exec_rxPop_of_cons hq]
    rfl

theorem exec_status_eq (e : Byte) (s : State) :
    exec (.status e) s = .next (s.out (.status (statusReport e (s.ep e)))) := rfl

/-- Settles O40: STATUS is one output event, the report of the record as it stands. -/
theorem statusCommand : Obligations.StatusCommand := by
  unfold Obligations.StatusCommand
  exact exec_status_eq

/-! ## SEC_STATE (45_endpoint_cmds.md R314) -/

/-- `drain_pending` has nothing to do at `e`: nothing waits there, or nothing can be sent. -/
def drained (s : State) (e : Byte) : Prop := (s.ep e).pending = [] ∨ canSend s e = false

theorem sendNew_pending (e : Byte) (P : Bytes) (s : State) :
    ((sendNew e P s).ep e).pending = (s.ep e).pending := by
  obtain ⟨t, hep, -, -⟩ := sendNew_ep e P s
  rw [hep]
  rfl

/-- As many rounds as entries are enough, since each round takes one entry. -/
theorem drainLoop_drained {e : Byte} {n : Nat} {s : State} (hn : (s.ep e).pending.length ≤ n) :
    drained (drainLoop e n s) e := by
  induction n generalizing s with
  | zero => exact .inl (List.eq_nil_of_length_eq_zero (Nat.le_zero.mp hn))
  | succ n ih =>
    rcases drainLoop_cases e n s with ⟨hstop, hdrained⟩ | ⟨P, rest, hpending, -, hround⟩
    · rw [hstop]
      exact hdrained
    · rw [hround]
      refine ih ?_
      rw [hpending, List.length_cons] at hn
      rw [State.out_ep, sendNew_pending, State.modEp_ep_self]
      exact Nat.le_of_succ_le_succ hn

theorem drainPending_drained (e : Byte) (s : State) : drained (drainPending e s) e :=
  drainLoop_drained (Nat.le_refl _)

/-- Whether an endpoint is drained depends on its own record and on the session state alone. -/
theorem drained_of_touches {e a : Byte} {s t : State} (h : TouchesOnly e s t) (ha : a ≠ e) (hs : drained s a) :
    drained t a := by
  obtain ⟨-, -, -, -, -, hsession, -, -, -, hep, -, -⟩ := h.fields
  rw [drained, canSend, gateOk, hep a ha, hsession]
  exact hs

/-- Draining a list of endpoints leaves each of them drained: a later drain does not undo an earlier one. -/
theorem foldl_drainPending_drained {l : List Byte} {a : Byte} {s : State} (h : a ∈ l ∨ drained s a) :
    drained (l.foldl (fun u e => drainPending e u) s) a := by
  induction l generalizing s with
  | nil => exact h.resolve_left List.not_mem_nil
  | cons e l ih =>
    refine ih ?_
    by_cases hae : a = e
    · exact .inr (hae ▸ drainPending_drained e s)
    · exact h.imp (List.mem_of_ne_of_mem hae) (drained_of_touches (drainPending_touches e s) hae)

theorem drainAll_drained (s : State) (e : Byte) : drained (drainAll s) e :=
  foldl_drainPending_drained (.inl ((mem_endpointsFrom 0 e).mpr (Nat.zero_le _)))

theorem exec_secState_of_ne {v : SessionState} (h : v ≠ .initialized) (s : State) :
    exec (.secState v) s = .next ((s.setSession v).out (.cmdOk .opSecState 0)) := by
  simp only [exec, execSecState, if_neg h]

theorem exec_secState_initialized (s : State) :
    exec (.secState .initialized) s =
      .next ((drainAll (s.setSession .initialized)).out (.cmdOk .opSecState 0)) := rfl

/-- Settles O41: Initialized drains every endpoint once, and `drainAll_drained` says what is left. -/
theorem secStateCommand : Obligations.SecStateCommand := by
  unfold Obligations.SecStateCommand
  intro v s s'
  refine ⟨fun hne => ?_, fun hinit => ?_⟩
  · rw [exec_secState_of_ne hne]
    rfl
  · subst hinit
    exact ⟨drainAll (s.setSession .initialized), exec_secState_initialized s, rfl, drainAll_drained _⟩

/-! ## UI_SEND (45_endpoint_cmds.md R315) -/

/-- Settles O42: the checks of UI_SEND are the model's in the same order. -/
theorem uiSendCommand : Obligations.UiSendCommand := by
  unfold Obligations.UiSendCommand
  intro e P s refuse
  refine congrArg Host.Outcome.next ?_
  by_cases hep : e ≠ 0
  · rw [if_pos hep, if_pos hep]
    rfl
  rw [if_neg hep, if_neg hep]
  obtain rfl : e = 0 := Decidable.not_not.mp hep
  by_cases hlarge : s.cfg.mtu < P.length
  · rw [if_pos hlarge, if_pos hlarge]
    rfl
  rw [if_neg hlarge, if_neg hlarge]
  by_cases hclosed : (s.ep 0).state ≠ .opened
  · rw [if_pos hclosed, if_pos hclosed]
    rfl
  · rw [if_neg hclosed, if_neg hclosed, sendUI, ctrlU_ui]
    rfl

end Sys2Proof
end

section
/-! SUPPORT. The violation history and its threshold (60_exceptions.md R357): what is kept of the stamps, and when a
full history resets the link. -/

namespace Sys2Proof

open Machine

/-- What is kept of the stamps: the oldest ones beyond VIOL_COUNT go. -/
theorem violHistAfter_eq_drop (s : State) :
    violHistAfter s = (s.violHist ++ [s.now]).drop (s.violHist.length + 1 - s.cfg.violCount) := by
  rw [violHistAfter, lastN, List.length_append, List.length_singleton]

/-- A history with room for one more stamp keeps them all. -/
theorem violHistAfter_of_room {s : State} (h : s.violHist.length + 1 ≤ s.cfg.violCount) :
    violHistAfter s = s.violHist ++ [s.now] := by
  rw [violHistAfter_eq_drop, Nat.sub_eq_zero_of_le h, List.drop_zero]

theorem length_violHistAfter (s : State) :
    (violHistAfter s).length = min s.cfg.violCount (s.violHist.length + 1) := by
  rw [violHistAfter_eq_drop, List.length_drop, List.length_append, List.length_singleton]
  omega

theorem violTripped_of_short {s : State} {hist : List Nat} (h : hist.length < s.cfg.violCount) :
    violTripped s hist = false := by
  cases hist with
  | nil => rfl
  | cons oldest rest => rw [violTripped, decide_eq_false (Nat.ne_of_lt h), Bool.false_and]

/-- Of a full history only the age of the oldest stamp counts. -/
theorem violTripped_of_full {s : State} {oldest : Nat} {rest : List Nat}
    (h : (oldest :: rest).length = s.cfg.violCount) :
    violTripped s (oldest :: rest) = decide (s.now < oldest + s.cfg.violWindow) := by
  rw [violTripped, decide_eq_true h, Bool.true_and]

/-- `raiseViolation_cases` as one equation. -/
theorem raiseViolation_eq (r : ViolReason) (s : State) :
    raiseViolation r s =
      if violTripped s (violHistAfter s) = true then
        linkResetEndpoints 0 .violations
          { s with output := s.output ++ [.violation r], violHist := violHistAfter s }
      else { s with output := s.output ++ [.violation r], violHist := violHistAfter s } := by
  rcases raiseViolation_cases r s with ⟨hcalm, h⟩ | ⟨htripped, h⟩
  · rw [h, hcalm, if_neg Bool.false_ne_true]
  · rw [h, if_pos htripped]

/-- Settles O32: by `raiseViolation_eq` the threshold test decides. A short history fails it, and for a full one it is
the age of the oldest stamp. -/
theorem violationThreshold : Obligations.ViolationThreshold := by
  unfold Obligations.ViolationThreshold
  intro r s s'
  refine ⟨fun hshort => ?_, fun oldest rest hcount hkept => ?_⟩
  · have hhist : violHistAfter s = s.violHist ++ [s.now] := violHistAfter_of_room (Nat.le_of_lt hshort)
    have hcalm : violTripped s (violHistAfter s) = false :=
      violTripped_of_short (by rw [length_violHistAfter, Nat.min_eq_right (Nat.le_of_lt hshort)]; exact hshort)
    rw [raiseViolation_eq, hcalm, if_neg Bool.false_ne_true, hhist]
  · have hhist : violHistAfter s = oldest :: rest := (violHistAfter_eq_drop s).trans hkept
    have hfull : (oldest :: rest).length = s.cfg.violCount := by
      rw [← hhist, length_violHistAfter, Nat.min_eq_left hcount]
    rw [raiseViolation_eq, hhist, violTripped_of_full hfull]
    simp only [decide_eq_true_eq, s']

end Sys2Proof
end

section
/-! SUPPORT. The block reset (70_reset_and_hazards.md R380). -/

namespace Sys2Proof

open Machine

/-- Settles O11: the block's own fields and the fields of the reset record are written out in `State.resetWith` and
`Endpoint.reset`; that every one of the 256 endpoints holds that record is `State.resetWith_ep`. -/
theorem resetValues : Obligations.ResetValues := by
  unfold Obligations.ResetValues
  refine ⟨fun cfg => ⟨rfl, rfl, rfl, rfl, rfl, rfl, rfl, rfl, rfl, rfl, fun e => ?_⟩, rfl⟩
  intro x
  have hrecord : x = Endpoint.reset cfg.rtoInit := State.resetWith_ep cfg e
  rw [hrecord]
  and_intros <;> rfl

end Sys2Proof
end

section
/-! SUPPORT. Decode and encode agree: the fields of a command word and of a control byte after they are built, the words
and the frames that decode, and what each spells (30_encoding.md R100 to R123; 40_crc.md R147). -/

namespace Sys2Proof

open Machine

/-! ## A command word and its fields (30_encoding.md R120) -/

theorem opField_toNat (op : BitVec 4) : (op.setWidth 16 <<< 12).toNat = 0x1000 * op.toNat := by
  have hop := op.isLt
  simp only [BitVec.toNat_shiftLeft, BitVec.toNat_setWidth, Nat.shiftLeft_eq]
  omega

theorem argField_toNat (arg : BitVec 4) : (arg.setWidth 16 <<< 8).toNat = 0x100 * arg.toNat := by
  have harg := arg.isLt
  simp only [BitVec.toNat_shiftLeft, BitVec.toNat_setWidth, Nat.shiftLeft_eq]
  omega

theorem epField_toNat (ep : Byte) : (ep.setWidth 16).toNat = ep.toNat := by
  have hep := ep.isLt
  simp only [BitVec.toNat_setWidth]
  omega

/-- The three fields do not overlap, so their disjunction is their sum. -/
theorem commandWord_toNat (op arg : BitVec 4) (ep : Byte) :
    (commandWord op arg ep).toNat = 0x1000 * op.toNat + 0x100 * arg.toNat + ep.toNat := by
  have harg := arg.isLt
  have hep := ep.isLt
  have hlow : 0x100 * arg.toNat + ep.toNat = 0x100 * arg.toNat ||| ep.toNat :=
    Nat.two_pow_add_eq_or_of_lt (i := 8) hep arg.toNat
  have hlowLt : 0x100 * arg.toNat + ep.toNat < 0x1000 := by omega
  have hall : 0x1000 * op.toNat + (0x100 * arg.toNat + ep.toNat) =
      0x1000 * op.toNat ||| (0x100 * arg.toNat + ep.toNat) :=
    Nat.two_pow_add_eq_or_of_lt (i := 12) hlowLt op.toNat
  rw [commandWord, BitVec.toNat_or, BitVec.toNat_or, opField_toNat, argField_toNat, epField_toNat, Nat.or_assoc, ← hlow,
    ← hall, Nat.add_assoc]

@[simp] theorem opOf_commandWord (op arg : BitVec 4) (ep : Byte) : opOf (commandWord op arg ep) = op := by
  have harg := arg.isLt
  have hep := ep.isLt
  apply BitVec.eq_of_toNat_eq
  rw [opOf_toNat, commandWord_toNat]
  omega

@[simp] theorem argOf_commandWord (op arg : BitVec 4) (ep : Byte) : argOf (commandWord op arg ep) = arg := by
  have harg := arg.isLt
  have hep := ep.isLt
  apply BitVec.eq_of_toNat_eq
  rw [argOf_toNat, commandWord_toNat]
  omega

@[simp] theorem epOf_commandWord (op arg : BitVec 4) (ep : Byte) : epOf (commandWord op arg ep) = ep := by
  have hep := ep.isLt
  apply BitVec.eq_of_toNat_eq
  rw [epOf_toNat, commandWord_toNat]
  omega

/-- A word is its three fields. -/
theorem commandWord_fields (w : Word) : commandWord (opOf w) (argOf w) (epOf w) = w := by
  apply BitVec.eq_of_toNat_eq
  rw [commandWord_toNat, opOf_toNat, argOf_toNat, epOf_toNat]
  omega

/-- The subfields of the argument of OPEN, FAIL and SEC_STATE are read from the argument alone (30_encoding.md R122). -/
theorem encOf_eq (w : Word) : encOf w = (argOf w)[3] := by
  simp [encOf, argOf]

theorem windowOf_eq (w : Word) : windowOf w = (argOf w).extractLsb' 0 3 := by
  apply BitVec.eq_of_getLsbD_eq
  intro i hi
  have h4 : i < 4 := by omega
  simp [windowOf, argOf, hi, h4]

theorem argHighOf_eq (w : Word) : argHighOf w = (argOf w).extractLsb' 2 2 := by
  apply BitVec.eq_of_getLsbD_eq
  intro i hi
  have h4 : 2 + i < 4 := by omega
  simp [argHighOf, argOf, hi, h4, ← Nat.add_assoc]

theorem argLowOf_eq (w : Word) : argLowOf w = (argOf w).extractLsb' 0 2 := by
  apply BitVec.eq_of_getLsbD_eq
  intro i hi
  have h4 : i < 4 := by omega
  simp [argLowOf, argOf, hi, h4]

/-- OPEN's argument is built from its subfields and read back. -/
@[simp] theorem openArg_enc : ∀ (window : BitVec 3) (enc : Bool), (BitVec.ofBool enc ++ window : BitVec 4)[3] = enc := by
  decide

@[simp] theorem openArg_window :
    ∀ (window : BitVec 3) (enc : Bool), (BitVec.ofBool enc ++ window : BitVec 4).extractLsb' 0 3 = window := by
  decide

theorem openArg_fields : ∀ arg : BitVec 4, BitVec.ofBool arg[3] ++ arg.extractLsb' 0 3 = arg := by
  decide

/-- The argument of FAIL and SEC_STATE: two zero bits over a code of two bits. -/
@[simp] theorem codeArg_high : ∀ v : BitVec 2, (0#2 ++ v).extractLsb' 2 2 = 0#2 := by
  decide

@[simp] theorem codeArg_low : ∀ v : BitVec 2, (0#2 ++ v).extractLsb' 0 2 = v := by
  decide

theorem codeArg_fields : ∀ arg : BitVec 4, arg.extractLsb' 2 2 = 0#2 → 0#2 ++ arg.extractLsb' 0 2 = arg := by
  decide

@[simp] theorem failCauseOf_code (cause : FailCause) : failCauseOf (failCauseCode cause) = some cause := by
  cases cause <;> rfl

theorem failCauseCode_of {v : BitVec 2} {cause : FailCause} (h : failCauseOf v = some cause) :
    failCauseCode cause = v := by
  revert h
  revert v cause
  decide

@[simp] theorem sessionOf_code (session : SessionState) : sessionOf (sessionCode session) = session := by
  cases session <;> rfl

theorem sessionCode_of : ∀ v : BitVec 2, sessionCode (sessionOf v) = v := by
  decide

/-! ## Command words (30_encoding.md R121, R122) -/

/-- A command word decodes to the instruction that it encodes. -/
theorem decodeCommand_of_encode {i : Instr} {w : Word} {P : Bytes} (h : encode i = .command w P) :
    decodeCommand w P = .ok i := by
  cases i with
  | iFrame | rr | rej | ui | upf | uack | ureset => exact absurd h nofun
  | openEp e window enc =>
    obtain ⟨rfl, rfl⟩ := Encoded.command.inj h
    simp [decodeCommand, windowOf_eq, encOf_eq]
  | fail e cause =>
    obtain ⟨rfl, rfl⟩ := Encoded.command.inj h
    simp [decodeCommand, decodeFail, requireZero, argHighOf_eq, argLowOf_eq]
  | secState session =>
    obtain ⟨rfl, rfl⟩ := Encoded.command.inj h
    simp [decodeCommand, requireZero, argHighOf_eq, argLowOf_eq]
  | closeEp | write | uiSend | rxPop | status | linkReset | rxByte | txPull | tick =>
    obtain ⟨rfl, rfl⟩ := Encoded.command.inj h
    simp [decodeCommand, requireZero]

theorem commandWord_eq {w : Word} {op arg : BitVec 4} {ep : Byte} (hop : (opOf w).toNat = op.toNat)
    (harg : argOf w = arg) (hep : epOf w = ep) : commandWord op arg ep = w := by
  rw [← BitVec.eq_of_toNat_eq hop, ← harg, ← hep, commandWord_fields]

theorem requireZero_eq_ok {zero : Bool} {m : Mnemonic} {w : Word} {i j : Instr}
    (h : requireZero zero m w i = .ok j) : zero = true ∧ i = j := by
  cases zero with
  | false => exact absurd h nofun
  | true => exact ⟨rfl, Except.ok.inj h⟩

theorem decodeFail_eq_ok {w : Word} {j : Instr} (h : decodeFail w = .ok j) :
    ∃ cause, failCauseOf (argLowOf w) = some cause ∧ argHighOf w = 0 ∧ j = .fail (epOf w) cause := by
  unfold decodeFail at h
  split at h
  case h_1 cause hcause =>
    obtain ⟨hzero, hj⟩ := requireZero_eq_ok h
    exact ⟨cause, hcause, beq_iff_eq.mp hzero, hj.symm⟩
  case h_2 => exact absurd h nofun

/-- The argument of a word with two zero bits over a code. -/
theorem codeArg_eq {w : Word} {v : BitVec 2} (hhigh : argHighOf w = 0) (hlow : argLowOf w = v) :
    argOf w = 0#2 ++ v := by
  rw [argHighOf_eq] at hhigh
  rw [← hlow, argLowOf_eq, codeArg_fields _ hhigh]

/-- The instruction of a command word encodes to that word, and to the payload that came with it or to none. -/
theorem encode_of_decodeCommand {w : Word} {P : Bytes} {i : Instr} (h : decodeCommand w P = .ok i) :
    encode i = .command w P ∨ encode i = .command w [] ∧ ∀ e R, i ≠ .write e R ∧ i ≠ .uiSend e R := by
  unfold decodeCommand at h
  split at h
  case h_1 hop =>
    obtain rfl := Except.ok.inj h
    have harg : argOf w = BitVec.ofBool (encOf w) ++ windowOf w := by rw [encOf_eq, windowOf_eq, openArg_fields]
    exact .inr ⟨by rw [encode, commandWord_eq hop harg rfl], fun _ _ => ⟨nofun, nofun⟩⟩
  case h_3 hop | h_4 hop =>
    obtain ⟨hzero, rfl⟩ := requireZero_eq_ok h
    exact .inl (by rw [encode, commandWord_eq hop (beq_iff_eq.mp hzero) rfl])
  case h_2 hop | h_5 hop | h_6 hop | h_10 hop =>
    obtain ⟨hzero, rfl⟩ := requireZero_eq_ok h
    exact .inr ⟨by rw [encode, commandWord_eq hop (beq_iff_eq.mp hzero) rfl], fun _ _ => ⟨nofun, nofun⟩⟩
  case h_7 hop =>
    obtain ⟨cause, hcause, hhigh, rfl⟩ := decodeFail_eq_ok h
    have harg := codeArg_eq hhigh (failCauseCode_of hcause).symm
    exact .inr ⟨by rw [encode]; exact congrArg (Encoded.command · _) (commandWord_eq hop harg rfl),
      fun _ _ => ⟨nofun, nofun⟩⟩
  case h_9 hop =>
    obtain ⟨hzero, rfl⟩ := requireZero_eq_ok h
    obtain ⟨hhigh, hep⟩ := Bool.and_eq_true_iff.mp hzero
    have harg := codeArg_eq (beq_iff_eq.mp hhigh) (sessionCode_of (argLowOf w)).symm
    exact .inr ⟨by rw [encode]; exact congrArg (Encoded.command · _) (commandWord_eq hop harg (beq_iff_eq.mp hep)),
      fun _ _ => ⟨nofun, nofun⟩⟩
  case h_8 hop | h_11 hop | h_12 hop =>
    obtain ⟨hzero, rfl⟩ := requireZero_eq_ok h
    obtain ⟨harg, hep⟩ := Bool.and_eq_true_iff.mp hzero
    exact .inr ⟨by rw [encode, commandWord_eq hop (beq_iff_eq.mp harg) (beq_iff_eq.mp hep)], fun _ _ => ⟨nofun, nofun⟩⟩
  case h_13 => exact absurd h nofun

/-- Settles O2: WRITE and UI_SEND encode to the payload that came with the word, the other commands to none. -/
theorem decodedWordEncodesBack : Obligations.DecodedWordEncodesBack := by
  unfold Obligations.DecodedWordEncodesBack
  intro w P i h
  rcases encode_of_decodeCommand h with hsame | ⟨hnone, hplain⟩
  · refine ⟨P, hsame, fun e R hi => ⟨?_, rfl⟩⟩
    rcases hi with rfl | rfl
    · exact (Encoded.command.inj hsame).2
    · exact (Encoded.command.inj hsame).2
  · refine ⟨[], hnone, fun e R hi => ?_⟩
    obtain ⟨hwrite, hsend⟩ := hplain e R
    exact absurd hi (not_or.mpr ⟨hwrite, hsend⟩)

/-! ## The control byte (30_encoding.md R105 to R109) -/

/-- A frame instruction is its kind and its frame, and the numbers its control byte carries. -/
theorem decodeFrame_ctrlI (a : Byte) (P : Bytes) (corrupt : Bool) (n A : Seq) (pf : Bool) :
    decodeFrame a (ctrlI n A pf) P corrupt = .ok (.iFrame ⟨a, P, corrupt⟩ n pf A) := by
  have hfields : ∀ (n A : Seq) (pf : Bool), kind (ctrlI n A pf) = .i ∧ seqOf (ctrlI n A pf) = n ∧
      pfOf (ctrlI n A pf) = pf ∧ ackOf (ctrlI n A pf) = A := by decide
  obtain ⟨hkind, hseq, hpf, hack⟩ := hfields n A pf
  simp only [decodeFrame, hkind, hseq, hpf, hack]

theorem decodeFrame_ctrlS_rr (a : Byte) (P : Bytes) (corrupt : Bool) (A : Seq) (pf : Bool) :
    decodeFrame a (ctrlS functionRR A pf) P corrupt = .ok (.rr ⟨a, P, corrupt⟩ pf A) := by
  have hfields : ∀ (A : Seq) (pf : Bool), kind (ctrlS functionRR A pf) = .rr ∧
      pfOf (ctrlS functionRR A pf) = pf ∧ ackOf (ctrlS functionRR A pf) = A := by decide
  obtain ⟨hkind, hpf, hack⟩ := hfields A pf
  simp only [decodeFrame, hkind, hpf, hack]

theorem decodeFrame_ctrlS_rej (a : Byte) (P : Bytes) (corrupt : Bool) (A : Seq) (pf : Bool) :
    decodeFrame a (ctrlS functionREJ A pf) P corrupt = .ok (.rej ⟨a, P, corrupt⟩ pf A) := by
  have hfields : ∀ (A : Seq) (pf : Bool), kind (ctrlS functionREJ A pf) = .rej ∧
      pfOf (ctrlS functionREJ A pf) = pf ∧ ackOf (ctrlS functionREJ A pf) = A := by decide
  obtain ⟨hkind, hpf, hack⟩ := hfields A pf
  simp only [decodeFrame, hkind, hpf, hack]

/-- The control byte of a kind is built from its fields. -/
theorem ctrlI_of_kind : ∀ c : Byte, kind c = .i → ctrlI (seqOf c) (ackOf c) (pfOf c) = c := by
  decide +kernel

theorem ctrlS_of_kind_rr : ∀ c : Byte, kind c = .rr → ctrlS functionRR (ackOf c) (pfOf c) = c := by
  decide +kernel

theorem ctrlS_of_kind_rej : ∀ c : Byte, kind c = .rej → ctrlS functionREJ (ackOf c) (pfOf c) = c := by
  decide +kernel

theorem ctrlU_of_kind : ∀ c : Byte, (kind c = .ui → ctrlU utypeUI = c) ∧ (kind c = .upf → ctrlU utypeUPF = c) ∧
    (kind c = .uack → ctrlU utypeUACK = c) ∧ (kind c = .ureset → ctrlU utypeURESET = c) := by
  decide +kernel

/-- What a control byte of a kind, with an address, a payload and a corrupt marker, decodes to: an instruction of this
kind and frame, which encodes back to the frame's bytes. -/
theorem decodeFrame_eq_ok {a c : Byte} {P : Bytes} {corrupt : Bool} {i : Instr}
    (h : decodeFrame a c P corrupt = .ok i) :
    kind c ≠ .unknown ∧ instrFrame i = some (kind c, ⟨a, P, corrupt⟩) ∧
      encode i = .frame ((⟨a, P, corrupt⟩ : RxFrame).bytes c) := by
  obtain ⟨hui, hupf, huack, hureset⟩ := ctrlU_of_kind c
  unfold decodeFrame at h
  split at h
  case h_8 => exact absurd h nofun
  all_goals
    rename_i hk
    obtain rfl := Except.ok.inj h
    refine ⟨by rw [hk]; nofun, by rw [hk]; rfl, ?_⟩
  · rw [encode, ctrlI_of_kind c hk]
  · rw [encode, ctrlS_of_kind_rr c hk]
  · rw [encode, ctrlS_of_kind_rej c hk]
  · rw [encode, hui hk]
  · rw [encode, hupf hk]
  · rw [encode, huack hk]
  · rw [encode, hureset hk]

/-- Dispatching a control byte that has a kind runs the instruction it decodes to. -/
theorem exec_of_decodeFrame {a c : Byte} {P : Bytes} {corrupt : Bool} {i : Instr}
    (h : decodeFrame a c P corrupt = .ok i) (s : State) : exec i s = .next (dispatch a c P corrupt s) := by
  unfold decodeFrame at h
  split at h
  case h_8 => exact absurd h nofun
  all_goals
    rename_i hk
    obtain rfl := Except.ok.inj h
    simp only [dispatch, hk]
    rfl

/-- Settles O15: by cases of the kind, `dispatch` is the meaning of the instruction. -/
theorem dispatchRunsTheDecodedFrame : Obligations.DispatchRunsTheDecodedFrame := by
  unfold Obligations.DispatchRunsTheDecodedFrame
  exact fun a c P corrupt i s h => exec_of_decodeFrame h s

/-! ## Frames: decode after encode (30_encoding.md R100 to R103) -/

theorem hcsOk_headerOf (a c : Byte) (L : Nat) : hcsOk (headerOf a c L) = true := by
  have hcovered : (headerOf a c L).covered = headerPrefix a c L := rfl
  rw [hcsOk, hcovered, headerOf, rdLe16_of_le16, beq_self_eq_true]

/-- The FCS field of a payload, as the encoder writes it. -/
theorem fcsOk_of_le16 (P : Bytes) (x : Word) :
    fcsOk P (x.setWidth 8) ((x >>> 8).setWidth 8) = (crc16 P == x) := by
  rw [fcsOk, rdLe16_of_le16]

theorem crc_flipped_ne (x : Word) : (x == x ^^^ 1) = false := by
  rw [beq_eq_false_iff_ne]
  intro h
  have hbit := congrArg (BitVec.getLsbD · 0) h
  simp at hbit

/-- What follows a header of length L: nothing without a payload. -/
theorem decodeBody_nil : decodeBody 0 [] = .ok ([], false) := rfl

/-- With a payload: its bytes and an FCS field. -/
theorem decodeBody_payload {P : Bytes} (hP : P ≠ []) (x : Word) :
    decodeBody P.length (P ++ le16 x) = .ok (P, !(crc16 P == x)) := by
  have hlen : P.length ≠ 0 := fun h => hP (List.eq_nil_of_length_eq_zero h)
  simp only [decodeBody, if_neg hlen, List.drop_left, List.take_left, le16_eq, fcsOk_of_le16]

/-- A header the encoder builds passes its checks, and what follows decides. -/
theorem decodeFrameBytes_layout {L : Nat} (hL : L ≤ 65535) (a c : Byte) {rest P : Bytes} {corrupt : Bool}
    (hbody : decodeBody L rest = .ok (P, corrupt)) :
    decodeFrameBytes (headerPrefix a c L ++ hcsGen (headerPrefix a c L) ++ rest) = decodeFrame a c P corrupt := by
  have hflag : (headerOf a c L).flag = flagByte := rfl
  have hdrop : (headerPrefix a c L ++ hcsGen (headerPrefix a c L) ++ rest).drop 7 = rest := rfl
  simp only [decodeFrameBytes, headerAt_layout, hflag, ne_eq, not_true, if_false, hcsOk_headerOf, Bool.true_eq_false,
    hdrop, headerOf_length a c L hL, hbody]
  rfl

theorem decodeFrameBytes_frameBytes (a c : Byte) {P : Bytes} (hP : P.length ≤ 65535) :
    decodeFrameBytes (frameBytes a c P) = decodeFrame a c P false := by
  by_cases hnil : P = []
  · subst hnil
    exact decodeFrameBytes_layout hP a c decodeBody_nil
  · rw [frameBytes_of_ne_nil a c hnil, List.append_assoc]
    refine decodeFrameBytes_layout hP a c ?_
    rw [decodeBody_payload hnil, beq_self_eq_true, Bool.not_true]

theorem decodeFrameBytes_corruptFrameBytes (a c : Byte) {P : Bytes} (hP : P.length ≤ 65535) (hnil : P ≠ []) :
    decodeFrameBytes (corruptFrameBytes a c P) = decodeFrame a c P true := by
  rw [corruptFrameBytes, List.append_assoc]
  refine decodeFrameBytes_layout hP a c ?_
  rw [decodeBody_payload hnil, crc_flipped_ne, Bool.not_false]

theorem RxFrame.wf_iff (f : RxFrame) :
    f.wf = true ↔ f.payload.length ≤ 65535 ∧ (f.corrupt = true → f.payload ≠ []) := by
  rw [RxFrame.wf, Bool.and_eq_true, payloadFits, decide_eq_true_eq, Bool.or_eq_true, Bool.not_eq_true',
    Bool.not_eq_true', List.isEmpty_eq_false_iff, ← Bool.not_eq_true, Decidable.imp_iff_not_or]

/-- A well-formed frame decodes to the instruction of its operands. -/
theorem decode_bytes_of_wf {f : RxFrame} {c : Byte} {i : Instr} (hwf : f.wf = true)
    (h : decodeFrame f.addr c f.payload f.corrupt = .ok i) : decode (.frame (f.bytes c)) = .ok i := by
  obtain ⟨hfits, hcorrupt⟩ := (RxFrame.wf_iff f).mp hwf
  have hbytes : decodeFrameBytes (f.bytes c) = .ok i := by
    rw [RxFrame.bytes, ← h]
    cases hc : f.corrupt with
    | true => exact decodeFrameBytes_corruptFrameBytes f.addr c hfits (hcorrupt hc)
    | false => exact decodeFrameBytes_frameBytes f.addr c hfits
  rw [decode, hbytes]

theorem decode_command_of_encode {i : Instr} {w : Word} {P : Bytes} (h : encode i = .command w P) :
    decode (encode i) = .ok i := by
  rw [h, decode, decodeCommand_of_encode h]

/-- Settles O1: a frame is decoded by its control byte once its header and FCS are read back, a command by its fields. -/
theorem decodeOfEncode : Obligations.DecodeOfEncode := by
  unfold Obligations.DecodeOfEncode
  intro i hwf
  cases i with
  | iFrame f n pf A => exact decode_bytes_of_wf hwf (decodeFrame_ctrlI _ _ _ n A pf)
  | rr f pf A => exact decode_bytes_of_wf hwf (decodeFrame_ctrlS_rr _ _ _ A pf)
  | rej f pf A => exact decode_bytes_of_wf hwf (decodeFrame_ctrlS_rej _ _ _ A pf)
  | ui f | upf f | uack f | ureset f => exact decode_bytes_of_wf hwf rfl
  | openEp | closeEp | write | uiSend | rxPop | status | fail | linkReset | secState | rxByte | txPull | tick =>
    exact decode_command_of_encode rfl

/-- Settles O10: the header and the FCS are read back as they were written, and the frame is decoded by its control
byte. -/
theorem encodedFramesValidate : Obligations.EncodedFramesValidate := by
  unfold Obligations.EncodedFramesValidate
  intro a c P hP
  refine ⟨⟨headerOf a c P.length, headerAt_frameBytes a c P, hcsOk_headerOf a c _, headerOf_length a c _ hP⟩,
    fun hnil => ?_, fun i hi => (decodeFrameBytes_frameBytes a c hP).trans hi⟩
  refine ⟨(crc16 P).setWidth 8, (crc16 P >>> 8).setWidth 8, ?_, by rw [fcsOk_of_le16, beq_self_eq_true]⟩
  rw [frameBytes_of_ne_nil a c hnil, List.append_assoc]
  rfl

/-! ## Frames: encode after decode -/

theorem le16_rdLe16 (lo hi : Byte) : le16 (rdLe16 lo hi) = [lo, hi] := by
  have hlo := lo.isLt
  have hhi := hi.isLt
  have hmod : (lo.toNat + 256 * hi.toNat) % 256 = lo.toNat := by omega
  have hdiv : (lo.toNat + 256 * hi.toNat) / 256 = hi.toNat := by omega
  rw [le16_eq_ofNat, rdLe16_toNat, hmod, hdiv, BitVec.ofNat_toNat, BitVec.ofNat_toNat, BitVec.setWidth_eq,
    BitVec.setWidth_eq]

/-- The seven bytes of a header (30_encoding.md R100). -/
def Machine.Header.bytes (h : Header) : Bytes := h.covered ++ [h.hcsLo, h.hcsHi]

/-- A buffer that holds a header is its seven bytes and the rest. -/
theorem eq_of_headerAt {bs : Bytes} {h : Header} (hh : headerAt bs = some h) : bs = h.bytes ++ bs.drop 7 := by
  unfold headerAt at hh
  split at hh
  case h_1 =>
    obtain rfl := Option.some.inj hh
    rfl
  case h_2 => exact absurd hh nofun

theorem headerPrefix_of_header {h : Header} (hflag : h.flag = flagByte) :
    headerPrefix h.addr h.control h.length = h.covered := by
  rw [headerPrefix, Header.length, BitVec.ofNat_toNat, BitVec.setWidth_eq, le16_rdLe16, ← hflag]
  rfl

/-- A header that passes its checks is the encoder's. -/
theorem header_bytes_eq {h : Header} (hflag : h.flag = flagByte) (hhcs : hcsOk h = true) :
    h.bytes = headerPrefix h.addr h.control h.length ++ hcsGen (headerPrefix h.addr h.control h.length) := by
  rw [headerPrefix_of_header hflag, hcsGen, beq_iff_eq.mp hhcs, le16_rdLe16]
  rfl

/-- The two ways a byte string can follow a header. -/
theorem decodeBody_eq_ok {L : Nat} {rest P : Bytes} {corrupt : Bool} (h : decodeBody L rest = .ok (P, corrupt)) :
    (L = 0 ∧ rest = [] ∧ P = [] ∧ corrupt = false) ∨
    (0 < L ∧ P.length = L ∧ ∃ f0 f1, rest = P ++ [f0, f1] ∧ corrupt = !fcsOk P f0 f1) := by
  unfold decodeBody at h
  split at h
  case isTrue hL =>
    split at h
    case h_1 =>
      obtain ⟨rfl, rfl⟩ := Prod.mk.inj (Except.ok.inj h)
      exact .inl ⟨hL, rfl, rfl, rfl⟩
    case h_2 => exact absurd h nofun
  case isFalse hL =>
    split at h
    case h_1 f0 f1 hdrop =>
      obtain ⟨rfl, rfl⟩ := Prod.mk.inj (Except.ok.inj h)
      have hlen := congrArg List.length hdrop
      rw [List.length_drop, List.length_cons, List.length_singleton] at hlen
      refine .inr ⟨Nat.pos_of_ne_zero hL, List.length_take_of_le (by omega), f0, f1, ?_, rfl⟩
      rw [← hdrop, List.take_append_drop]
    case h_2 => exact absurd h nofun

/-- A byte string that is a frame: a header that passes its checks, a body of its length, and a kind. -/
theorem decodeFrameBytes_eq_ok {bs : Bytes} {i : Instr} (h : decodeFrameBytes bs = .ok i) :
    ∃ hd P corrupt, headerAt bs = some hd ∧ hd.flag = flagByte ∧ hcsOk hd = true ∧
      decodeBody hd.length (bs.drop 7) = .ok (P, corrupt) ∧ decodeFrame hd.addr hd.control P corrupt = .ok i := by
  unfold decodeFrameBytes at h
  split at h
  case h_1 => exact absurd h nofun
  case h_2 hd hhead =>
    split at h
    case isTrue => exact absurd h nofun
    case isFalse hflag =>
      split at h
      case isTrue => exact absurd h nofun
      case isFalse hhcs =>
        split at h
        case h_1 => exact absurd h nofun
        case h_2 P corrupt hbody =>
          exact ⟨hd, P, corrupt, hhead, Decidable.not_not.mp hflag, Bool.of_not_eq_false hhcs, hbody, h⟩

/-- The bytes of an uncorrupted frame are those the encoder gives for its address, control byte and payload. -/
theorem frameBytes_of_decoded {bs : Bytes} {hd : Header} {P : Bytes} (hhead : headerAt bs = some hd)
    (hflag : hd.flag = flagByte) (hhcs : hcsOk hd = true)
    (hbody : decodeBody hd.length (bs.drop 7) = .ok (P, false)) : frameBytes hd.addr hd.control P = bs := by
  rw [eq_of_headerAt hhead, header_bytes_eq hflag hhcs]
  rcases decodeBody_eq_ok hbody with ⟨hL, hrest, rfl, -⟩ | ⟨hL, hlen, f0, f1, hrest, hfcs⟩
  · rw [hrest, hL, frameBytes_of_nil, List.append_nil]
    rfl
  · have hnil : P ≠ [] := fun h => by rw [h, List.length_nil] at hlen; omega
    have hcrc : crc16 P = rdLe16 f0 f1 := beq_iff_eq.mp (Bool.not_eq_eq_eq_not.mp hfcs.symm)
    rw [hrest, frameBytes_of_ne_nil _ _ hnil, hlen, hcrc, le16_rdLe16, List.append_assoc, List.append_assoc]
    rfl

/-- Settles O3: the header and the body that decode are the bytes the encoder lays out. -/
theorem decodedFrameEncodesBack : Obligations.DecodedFrameEncodesBack := by
  unfold Obligations.DecodedFrameEncodesBack
  intro bs i k f hbs hframe hclean
  obtain ⟨hd, P, corrupt, hhead, hflag, hhcs, hbody, hi⟩ := decodeFrameBytes_eq_ok hbs
  obtain ⟨-, hf, henc⟩ := decodeFrame_eq_ok hi
  obtain ⟨-, rfl⟩ := Prod.mk.inj (Option.some.inj (hf.symm.trans hframe))
  obtain rfl : corrupt = false := hclean
  rw [henc]
  exact congrArg Encoded.frame (frameBytes_of_decoded hhead hflag hhcs hbody)

/-- Settles O6: each word is decoded by evaluation. -/
theorem sampleWordsDecode : Obligations.SampleWordsDecode := by
  unfold Obligations.SampleWordsDecode
  decide +kernel

end Sys2Proof
end

section
/-! SUPPORT. The CRC register is linear: a byte enters by its top bits alone, and the low byte only moves up (40_crc.md
R140, R141, R145). -/

namespace Sys2Proof

open Machine

/-! ## The shift register is linear (40_crc.md R140) -/

/-- What the polynomial adds when a bit leaves the register. -/
def crcFeedback (top : Bool) : Word := if top then 0x1021 else 0

theorem crcShift_eq (c : Word) : crcShift c = (c <<< 1) ^^^ crcFeedback (c.getLsbD 15) := by
  unfold crcShift crcFeedback
  split
  · rfl
  · exact BitVec.xor_zero.symm

theorem crcFeedback_xor : ∀ a b : Bool, crcFeedback (a ^^ b) = crcFeedback a ^^^ crcFeedback b := by
  decide

theorem crcShift_xor (a b : Word) : crcShift (a ^^^ b) = crcShift a ^^^ crcShift b := by
  rw [crcShift_eq, crcShift_eq, crcShift_eq, BitVec.shiftLeft_xor_distrib, BitVec.getLsbD_xor, crcFeedback_xor]
  ac_rfl

theorem crcShifts_xor (n : Nat) (a b : Word) : crcShifts n (a ^^^ b) = crcShifts n a ^^^ crcShifts n b := by
  induction n generalizing a b with
  | zero => rfl
  | succ n ih => rw [crcShifts, crcShift_xor, ih, crcShifts, crcShifts]

/-- While no set bit reaches bit 15, the polynomial does not enter: the register only moves up. -/
theorem crcShifts_of_lt {n : Nat} {c : Word} (h : c.toNat * 2 ^ n < 2 ^ 16) : crcShifts n c = c <<< n := by
  induction n generalizing c with
  | zero => rw [crcShifts, BitVec.shiftLeft_zero]
  | succ n ih =>
    rw [Nat.pow_succ, ← Nat.mul_assoc] at h
    have hsmall : 2 * c.toNat < 2 ^ 16 := by
      have hpos : c.toNat ≤ c.toNat * 2 ^ n := Nat.le_mul_of_pos_right _ (Nat.two_pow_pos n)
      omega
    have htop : c.getLsbD 15 = false := BitVec.msb_eq_false_iff_two_mul_lt.mpr hsmall
    have hdouble : (c <<< 1).toNat = 2 * c.toNat := by
      rw [BitVec.toNat_shiftLeft, Nat.shiftLeft_eq, Nat.mul_comm, Nat.pow_one, Nat.mod_eq_of_lt hsmall]
    have hshift : crcShift c = c <<< 1 := by rw [crcShift, htop, if_neg Bool.false_ne_true]
    have hrest : (c <<< 1).toNat * 2 ^ n < 2 ^ 16 := by
      rw [hdouble, Nat.mul_assoc, Nat.mul_comm]
      exact h
    rw [crcShifts, hshift, ih hrest, ← BitVec.shiftLeft_add, Nat.add_comm]

/-- Eight shifts move the low byte to the top and nothing more. -/
theorem crcShifts_low_byte (b : Byte) : crcShifts 8 (b.setWidth 16) = b.setWidth 16 <<< 8 := by
  have hb := b.isLt
  refine crcShifts_of_lt ?_
  rw [BitVec.toNat_setWidth]
  omega

/-- A register is its high byte over its low byte. -/
theorem high_xor_low (c : Word) : ((c >>> 8).setWidth 8).setWidth 16 <<< 8 ^^^ (c.setWidth 8).setWidth 16 = c := by
  apply BitVec.eq_of_getLsbD_eq
  intro i hi
  by_cases h : i < 8
  · simp [hi, h]
  · have h8 : i - 8 < 8 := by omega
    have h16 : 8 + (i - 8) = i := by omega
    simp [hi, h, h8, h16]

theorem shiftLeft_eight (c : Word) : (c.setWidth 8).setWidth 16 <<< 8 = c <<< 8 := by
  apply BitVec.eq_of_getLsbD_eq
  intro i hi
  by_cases h : i < 8
  · simp [h]
  · have h8 : i - 8 < 8 := by omega
    simp [hi, h, h8]
    rw [BitVec.getLsbD_eq_getElem]

theorem widen_xor (a b : Byte) : (a ^^^ b).setWidth 16 <<< 8 = a.setWidth 16 <<< 8 ^^^ b.setWidth 16 <<< 8 := by
  rw [BitVec.setWidth_xor, BitVec.shiftLeft_xor_distrib]

/-! ## The byte-at-a-time form (40_crc.md R141) -/

theorem crc16_singleton (b : Byte) : crc16 [b] = crcShifts 8 (b.setWidth 16 <<< 8) := by
  rw [crc16, List.foldl_cons, List.foldl_nil, crcByte]
  exact congrArg (crcShifts 8) BitVec.zero_xor

/-- A byte meets the high byte of the register; the low byte moves up beside it. -/
theorem crcByte_eq_crcStep (c : Word) (b : Byte) : crcByte c b = crcStep c b := by
  have hsplit : c ^^^ b.setWidth 16 <<< 8 =
      (c.setWidth 8).setWidth 16 ^^^ ((c >>> 8).setWidth 8 ^^^ b).setWidth 16 <<< 8 := by
    rw [widen_xor, ← BitVec.xor_assoc, BitVec.xor_comm ((c.setWidth 8).setWidth 16), high_xor_low]
  rw [crcByte, hsplit, crcShifts_xor, crcShifts_low_byte, shiftLeft_eight, crcStep, crc16_singleton]

/-- Settles O7: each byte is taken in the same way by both forms. -/
theorem crcByteAtATime : Obligations.CrcByteAtATime := by
  unfold Obligations.CrcByteAtATime
  refine ⟨fun B => ?_, by decide⟩
  have hstep : crcStep = crcByte := by
    funext c b
    exact (crcByte_eq_crcStep c b).symm
  rw [hstep, crc16]

/-! ## Corner properties (40_crc.md R145) -/

theorem crc16_append (B C : Bytes) : crc16 (B ++ C) = C.foldl crcByte (crc16 B) := by
  rw [crc16, List.foldl_append, crc16]

theorem crc16_zero_cons (B : Bytes) : crc16 (0x00 :: B) = crc16 B := by
  have hzero : crcByte 0 0x00 = 0 := by decide
  rw [crc16, List.foldl_cons, hzero, crc16]

/-- The high byte of the register takes itself away, and the low byte moves to the top. -/
theorem crcByte_own_high (c : Word) : crcByte c ((c >>> 8).setWidth 8) = c <<< 8 := by
  have hzero : crc16 [0#8] = 0#16 := by decide
  rw [crcByte_eq_crcStep, crcStep, BitVec.xor_self, hzero, BitVec.xor_zero]

/-- Then the low byte does the same. -/
theorem crcByte_own_low (c : Word) : crcByte (c <<< 8) (c.setWidth 8) = 0 := by
  have hzero : crcShifts 8 0#16 = 0 := by decide
  rw [crcByte, shiftLeft_eight, BitVec.xor_self, hzero]

/-- Settles O8: (a) a zero byte leaves the register at 0, (b) the CRC's own bytes take it away, (c) by evaluation. -/
theorem crcCornerProperties : Obligations.CrcCornerProperties := by
  unfold Obligations.CrcCornerProperties
  refine ⟨crc16_zero_cons, fun B => ?_, by decide +kernel⟩
  rw [crc16_append, List.foldl_cons, List.foldl_cons, List.foldl_nil, crcByte_own_high, crcByte_own_low]

end Sys2Proof
end

section
/-! SUPPORT. One step of the block, the bytes of a whole frame through the deframer, and those of whole frames out of the
TX port (42_deframer_rx.md R181 to R187; 41_framer_tx.md R162, R166; 60_exceptions.md R351). -/

namespace Sys2Proof

open Machine

/-! ## One step (30_encoding.md R120 to R123) -/

theorem step_of_decodeCommand_ok {s : State} {x : InputEvent} {rest : List InputEvent} {i : Instr}
    (hin : s.input = x :: rest) (hdec : decodeCommand x.word x.payload = .ok i) :
    step s = exec i (s.setInput rest) := by
  simp only [step, hin, runInput, hdec]

theorem step_of_no_input {s : State} (hin : s.input = []) : step s = .next s := by
  simp only [step, hin]

/-- Settles O13: `runInput` is the decoder followed by `exec`. -/
theorem stepRunsTheDecodedCommand : Obligations.StepRunsTheDecodedCommand := by
  unfold Obligations.StepRunsTheDecodedCommand
  exact ⟨fun s w P rest i hin hdec => step_of_decodeCommand_ok hin hdec, fun s => step_of_no_input⟩

/-- A step does nothing, refuses its word, or runs a command, which is no frame instruction. -/
theorem step_cases (s : State) :
    step s = .next s ∨
    (∃ rest b, step s = .next (rejectCommand b (s.setInput rest))) ∨
    ∃ rest i, step s = exec i (s.setInput rest) ∧ instrFrame i = none := by
  cases hin : s.input with
  | nil => exact .inl (step_of_no_input hin)
  | cons x rest =>
    cases hdec : decodeCommand x.word x.payload with
    | error b => exact .inr (.inl ⟨rest, b, step_of_decodeCommand_error hin hdec⟩)
    | ok i =>
      refine .inr (.inr ⟨rest, i, step_of_decodeCommand_ok hin hdec, ?_⟩)
      have henc : ∃ Q, encode i = .command x.word Q :=
        (encode_of_decodeCommand hdec).elim (fun h => ⟨_, h⟩) fun h => ⟨_, h.1⟩
      obtain ⟨Q, henc⟩ := henc
      cases i with
      | iFrame | rr | rej | ui | upf | uack | ureset => exact absurd henc nofun
      | openEp | closeEp | write | uiSend | rxPop | status | fail | linkReset | secState | rxByte | txPull | tick => rfl

/-! ## The byte that completes a frame (42_deframer_rx.md R184, R186, R187) -/

/-- `s` with the deframer's state rewritten and output events added: all that RX_BYTE does of itself. -/
def Machine.State.rxMoved (s : State) (phase : RxPhase) (buf : Bytes) (need : Nat) (o : List Event) : State :=
  { s.setRx phase buf need with output := s.output ++ o }

/-- The state in which a completed frame is dispatched: the deframer is back in HUNT, and a corrupt frame announced. -/
def afterFrame (a : Byte) (corrupt : Bool) (s : State) : State :=
  s.rxMoved .hunt [] 0 (if corrupt then [.frameCorrupt a] else [])

theorem rxRestart_eq_afterFrame (a : Byte) (phase : RxPhase) (buf : Bytes) (need : Nat) (s : State) :
    rxRestart (s.setRx phase buf need) = afterFrame a false s := by
  rw [afterFrame, State.rxMoved, if_neg Bool.false_ne_true, List.append_nil]
  rfl

theorem rxFrameDone_setRx (h : Header) (P : Bytes) (corrupt : Bool) (phase : RxPhase) (buf : Bytes) (need : Nat)
    (s : State) :
    rxFrameDone h P corrupt (s.setRx phase buf need) =
      dispatch h.addr h.control P corrupt (afterFrame h.addr corrupt s) := by
  cases corrupt with
  | false => exact congrArg (dispatch h.addr h.control P false) (rxRestart_eq_afterFrame h.addr phase buf need s)
  | true => rfl

/-- The seventh byte of a header without payload completes a frame. -/
theorem exec_rxByte_of_header_done {s : State} {b : Byte} {h : Header} (hs : s.rxPhase = .header)
    (hlen : s.rxBuf.length = 6) (hhead : headerAt (s.rxBuf ++ [b]) = some h) (hhcs : hcsOk h = true)
    (hL : h.length = 0) :
    exec (.rxByte b) s = .next (dispatch h.addr h.control [] false (afterFrame h.addr false s)) := by
  rw [exec_rxByte_of_header hs, rxHeader_of_length_eq b hlen, rxCheckHeader_of_headerAt hhead,
    if_neg (ne_false_of_eq_true hhcs), if_neg (by rw [hL]; exact Nat.not_lt_zero _), if_pos hL,
    rxRestart_eq_afterFrame h.addr]

/-- The last byte of a body completes a frame, intact or corrupt. -/
theorem exec_rxByte_of_body_done {s : State} {b : Byte} {h : Header} {P : Bytes} {f0 f1 : Byte}
    (hs : s.rxPhase = .body) (hneed : s.rxNeed = 1) (hhead : headerAt (s.rxBuf ++ [b]) = some h)
    (hrest : (s.rxBuf ++ [b]).drop 7 = P ++ [f0, f1]) (hP : P.length = h.length) :
    exec (.rxByte b) s =
      .next (dispatch h.addr h.control P (!fcsOk P f0 f1) (afterFrame h.addr (!fcsOk P f0 f1) s)) := by
  have hbuf : (s.setRx .body (s.rxBuf ++ [b]) 0).rxBuf = h.bytes ++ (P ++ [f0, f1]) := by
    rw [State.setRx_rxBuf, ← hrest]
    exact eq_of_headerAt hhead
  rw [exec_rxByte_of_body hs, rxBody_of_last b hneed, rxCheckPayload_of_frame hbuf rfl hhead hP, rxFrameDone_setRx]

/-- Settles O14: the bytes that decode pass the deframer's checks, and their control byte is dispatched. -/
theorem completedFrameRunsItsInstruction : Obligations.CompletedFrameRunsItsInstruction := by
  unfold Obligations.CompletedFrameRunsItsInstruction
  intro s b i k f hphase hdec hf
  obtain ⟨hd, P, corrupt, hhead, -, hhcs, hbody, hi⟩ := decodeFrameBytes_eq_ok hdec
  obtain ⟨-, hframe, -⟩ := decodeFrame_eq_ok hi
  obtain ⟨-, rfl⟩ := Prod.mk.inj (Option.some.inj (hframe.symm.trans hf))
  change _ = exec i (afterFrame hd.addr corrupt s)
  rw [exec_of_decodeFrame hi]
  rcases decodeBody_eq_ok hbody with ⟨hL, hrest, rfl, rfl⟩ | ⟨hL, hlen, f0, f1, hrest, rfl⟩
  · rcases hphase with ⟨hs, h6⟩ | ⟨-, -, h7⟩
    · exact exec_rxByte_of_header_done hs h6 hhead hhcs hL
    · have hshort := congrArg List.length hrest
      rw [List.length_drop, List.length_append, List.length_singleton, List.length_nil] at hshort
      omega
  · rcases hphase with ⟨-, h6⟩ | ⟨hs, hneed, -⟩
    · have hlong := congrArg List.length hrest
      rw [List.length_drop, List.length_append, List.length_singleton, List.length_append, List.length_cons] at hlong
      omega
    · exact exec_rxByte_of_body_done hs hneed hhead hrest hlen

/-! ## A whole frame through the deframer (41_framer_tx.md R162) -/

theorem execAll_cons_of_next {i : Instr} {l : List Instr} {s t : State} (h : exec i s = .next t) :
    execAll (i :: l) s = execAll l t := by
  simp only [execAll, h]

theorem execAll_append_of_next {l l' : List Instr} {s t : State} (h : execAll l s = .next t) :
    execAll (l ++ l') s = execAll l' t := by
  induction l generalizing s with
  | nil =>
    obtain rfl := Host.Outcome.next.inj h
    rfl
  | cons i l ih =>
    rw [List.cons_append]
    cases hi : exec i s with
    | next u =>
      rw [execAll_cons_of_next hi] at h ⊢
      exact ih h
    | fault r => simp only [execAll, hi, reduceCtorEq] at h
    | refused r => simp only [execAll, hi, reduceCtorEq] at h

/-- Header bytes before the seventh are collected. -/
theorem execAll_rxByte_header {l : Bytes} {s : State} (hs : s.rxPhase = .header)
    (hlen : s.rxBuf.length + l.length ≤ 6) :
    execAll (l.map .rxByte) s = .next (s.setRx .header (s.rxBuf ++ l) s.rxNeed) := by
  induction l generalizing s with
  | nil =>
    rw [List.append_nil, ← hs]
    rfl
  | cons b l ih =>
    rw [List.length_cons] at hlen
    have hfirst : exec (.rxByte b) s = .next (s.setRx .header (s.rxBuf ++ [b]) s.rxNeed) := by
      rw [exec_rxByte_of_header hs, rxHeader_of_length_ne b (by omega)]
    have hrest : (s.setRx .header (s.rxBuf ++ [b]) s.rxNeed).rxBuf.length + l.length ≤ 6 := by
      rw [State.setRx_rxBuf, List.length_append, List.length_singleton]
      omega
    rw [List.map_cons, execAll_cons_of_next hfirst, ih rfl hrest, State.setRx_rxBuf, List.append_assoc]
    rfl

/-- Body bytes before the last expected one are collected. -/
theorem execAll_rxByte_body {l : Bytes} {n : Nat} {s : State} (hs : s.rxPhase = .body)
    (hneed : s.rxNeed = n + 1 + l.length) :
    execAll (l.map .rxByte) s = .next (s.setRx .body (s.rxBuf ++ l) (n + 1)) := by
  induction l generalizing s with
  | nil =>
    rw [List.append_nil, ← hs, ← show s.rxNeed = n + 1 from hneed]
    rfl
  | cons b l ih =>
    rw [List.length_cons] at hneed
    have hfirst : exec (.rxByte b) s = .next (s.setRx .body (s.rxBuf ++ [b]) (n + l.length + 1)) := by
      rw [exec_rxByte_of_body hs, rxBody_of_need b (n := n + l.length) (by omega)]
    have hrest : (s.setRx .body (s.rxBuf ++ [b]) (n + l.length + 1)).rxNeed = n + 1 + l.length := by
      rw [State.setRx_rxNeed]
      omega
    rw [List.map_cons, execAll_cons_of_next hfirst, ih rfl hrest, State.setRx_rxBuf, List.append_assoc]
    rfl

theorem exec_rxByte_flag {s : State} (hs : s.rxPhase = .hunt) :
    exec (.rxByte flagByte) s = .next (s.setRx .header [flagByte] s.rxNeed) := by
  rw [exec_rxByte_of_hunt hs, rxHunt, if_pos rfl]

/-- The first six bytes of the layout's header. -/
def headerFront (a c : Byte) (L : Nat) : Bytes := headerPrefix a c L ++ [(headerOf a c L).hcsLo]

/-- The first six bytes of a header, from HUNT. -/
theorem execAll_rxByte_headerFront {s : State} (hs : s.rxPhase = .hunt) (a c : Byte) (L : Nat) :
    execAll ((headerFront a c L).map .rxByte) s = .next (s.setRx .header (headerFront a c L) s.rxNeed) :=
  (execAll_cons_of_next (exec_rxByte_flag hs)).trans
    (execAll_rxByte_header (l := (headerFront a c L).tail) rfl (Nat.le_refl 6))

/-- The bytes of an encoded frame: six of the header, the seventh, and the body. -/
theorem frameBytes_split (a c : Byte) (P : Bytes) :
    frameBytes a c P = headerFront a c P.length ++ ((headerOf a c P.length).hcsHi :: (frameBytes a c P).drop 7) := rfl

/-- The seventh byte of the header of a frame with a payload of at most MTU bytes: the body is awaited. -/
theorem exec_rxByte_header_body {s : State} {a c : Byte} {L : Nat} (hpos : 0 < L) (hL : L ≤ s.cfg.mtu)
    (hmtu : s.cfg.mtu ≤ 65535) :
    exec (.rxByte (headerOf a c L).hcsHi) (s.setRx .header (headerFront a c L) s.rxNeed) =
      .next (s.setRx .body (headerOf a c L).bytes (L + 2)) := by
  have hlen : (headerOf a c L).length = L := headerOf_length a c L (Nat.le_trans hL hmtu)
  rw [exec_rxByte_of_header rfl, rxHeader_of_length_eq _ rfl, rxCheckHeader_of_headerAt (h := headerOf a c L) rfl,
    if_neg (ne_false_of_eq_true (hcsOk_headerOf a c L)), hlen, State.setRx_cfg, State.setRx_cfg,
    if_neg (Nat.not_lt_of_le hL), if_neg (Nat.ne_of_gt hpos)]
  rfl

/-- Settles O19: the header's bytes are collected and pass their checks; the body's bytes are collected, and the FCS
that the encoder wrote holds. -/
theorem encodedFrameIsDispatched : Obligations.EncodedFrameIsDispatched := by
  unfold Obligations.EncodedFrameIsDispatched
  intro s a c P hs hP hmtu
  have hdone : ∀ phase buf need, afterFrame a false (s.setRx phase buf need) =
      { s with rxPhase := .hunt, rxBuf := [], rxNeed := 0 } := fun phase buf need =>
    (rxRestart_eq_afterFrame a .hunt [] 0 _).symm
  rw [frameBytes_split, List.map_append, execAll_append_of_next (execAll_rxByte_headerFront hs a c P.length),
    List.map_cons]
  by_cases hnil : P = []
  · subst hnil
    rw [execAll_cons_of_next (exec_rxByte_of_header_done rfl rfl (h := headerOf a c 0) rfl (hcsOk_headerOf a c 0)
      (headerOf_length a c 0 (Nat.zero_le _)))]
    exact congrArg (fun u => Host.Outcome.next (dispatch a c [] false u)) (hdone _ _ _)
  · have hpos : 0 < P.length := List.length_pos_iff.mpr hnil
    have hbody : (frameBytes a c P).drop 7 =
        (P ++ [(crc16 P).setWidth 8]) ++ [(crc16 P >>> 8).setWidth 8] := by
      rw [frameBytes_of_ne_nil a c hnil, List.append_assoc, List.append_assoc P]
      rfl
    have hlast := exec_rxByte_of_body_done
      (s := s.setRx .body ((headerOf a c P.length).bytes ++ (P ++ [(crc16 P).setWidth 8])) 1)
      (b := (crc16 P >>> 8).setWidth 8) (h := headerOf a c P.length) (P := P) (f0 := (crc16 P).setWidth 8)
      (f1 := (crc16 P >>> 8).setWidth 8) rfl rfl rfl
      (by rw [State.setRx_rxBuf, List.append_assoc, List.append_assoc]; rfl)
      (headerOf_length a c _ (Nat.le_trans hP hmtu)).symm
    rw [fcsOk_of_le16, beq_self_eq_true, Bool.not_true] at hlast
    rw [execAll_cons_of_next (exec_rxByte_header_body hpos hP hmtu), hbody, List.map_append,
      execAll_append_of_next (execAll_rxByte_body (n := 0) rfl (by
        rw [State.setRx_rxNeed, List.length_append, List.length_singleton]; omega)), List.map_singleton]
    exact (execAll_cons_of_next hlast).trans
      (congrArg (fun u => Host.Outcome.next (dispatch a c P false u)) (hdone _ _ _))

/-! ## Whole frames out of the TX port (41_framer_tx.md R166) -/

/-- The bytes of the head frame from the cursor on leave one by one, and the frame leaves with the last. -/
theorem execAll_txPull_frame {F : Bytes} {rest : List Bytes} {s : State} (hq : s.txQueue = F :: rest)
    (hpos : s.txPos < F.length) :
    execAll (List.replicate (F.length - s.txPos) .txPull) s =
      .next { s with txQueue := rest, txPos := 0, output := s.output ++ (F.drop s.txPos).map .txByte } := by
  generalize hn : F.length - s.txPos = n
  induction n generalizing s with
  | zero => omega
  | succ n ih =>
    have hb : F[s.txPos]? = some F[s.txPos] := List.getElem?_eq_getElem hpos
    have hdrop : F.drop s.txPos = F[s.txPos] :: F.drop (s.txPos + 1) := List.drop_eq_getElem_cons hpos
    rw [List.replicate_succ]
    by_cases hlast : s.txPos + 1 = F.length
    · obtain rfl : n = 0 := by omega
      rw [execAll_cons_of_next (exec_txPull_of_last hq hb hlast), hdrop, hlast, List.drop_length]
      rfl
    · have hmore := ih (s := (s.out (.txByte F[s.txPos])).setTx s.txQueue (s.txPos + 1)) hq
        (by rw [State.setTx_txPos]; omega) (by rw [State.setTx_txPos]; omega)
      rw [execAll_cons_of_next (exec_txPull_of_not_last hq hb hlast), hmore, hdrop, State.setTx_output,
        State.out_output, State.setTx_txPos, List.map_cons, List.append_assoc]
      rfl

/-- Settles O46: frame after frame, each by `execAll_txPull_frame` from its first byte. -/
theorem framesLeaveWholeInOrder : Obligations.FramesLeaveWholeInOrder := by
  unfold Obligations.FramesLeaveWholeInOrder
  intro Fs rest s hq hpos hne
  induction Fs generalizing s with
  | nil =>
    rw [List.flatten_nil, List.map_nil, List.append_nil, ← List.nil_append rest, ← hq]
    rfl
  | cons F Fs ih =>
    obtain ⟨hF, hFs⟩ := List.forall_mem_cons.mp hne
    have hhead := execAll_txPull_frame hq (by rw [hpos]; exact List.length_pos_iff.mpr hF)
    rw [hpos, Nat.sub_zero, List.drop_zero] at hhead
    rw [List.flatten_cons, List.length_append, ← List.replicate_append_replicate, execAll_append_of_next hhead, ih _ rfl rfl hFs,
      List.map_append, List.append_assoc, ← hpos]

end Sys2Proof
end

section
/-! SUPPORT. Received frames that are refused by the checks of dispatch, the UI frame and the U-Reset, and what a link reset
and a CLOSE leave (43_frame_dispatch.md R210 to R224; 45_endpoint_cmds.md R305, R311). -/

namespace Sys2Proof

open Machine

/-! ## Frame instructions: refused or received (43_frame_dispatch.md R210) -/

/-- What the receive rule of a frame instruction makes of the state, once the checks of dispatch are passed; a command
has no receive rule. -/
def receiveRule : Instr → State → State
  | .iFrame f n _ A => rxI f.addr n A f.payload f.corrupt
  | .rr f _ A => rxRR f.addr A
  | .rej f _ A => rxREJ f.addr A
  | .ui f => rxUI f.payload f.corrupt
  | .upf f => fun s => s.out (.rxDrop f.addr .ignored)
  | .uack f => rxUACK f.addr
  | .ureset f => rxURESET f.addr
  | .openEp _ _ _ | .closeEp _ | .write _ _ | .uiSend _ _ | .rxPop _ | .status _ | .fail _ _ | .linkReset
  | .secState _ | .rxByte _ | .txPull | .tick => id

/-- A frame instruction raises the violation of the first check it fails, or runs its receive rule. -/
theorem exec_frame {i : Instr} {k : FrameKind} {f : RxFrame} (hf : instrFrame i = some (k, f)) (s : State) :
    exec i s = .next (match frameViolation k f.addr f.payload with
      | some r => raiseViolation r s
      | none => receiveRule i s) := by
  cases i with
  | iFrame | rr | rej | ui | upf | uack | ureset =>
    obtain ⟨rfl, rfl⟩ := Prod.mk.inj (Option.some.inj hf)
    rfl
  | openEp | closeEp | write | uiSend | rxPop | status | fail | linkReset | secState | rxByte | txPull | tick =>
    exact absurd hf nofun

theorem exec_frame_of_violation {i : Instr} {k : FrameKind} {f : RxFrame} {r : ViolReason}
    (hf : instrFrame i = some (k, f)) (hr : frameViolation k f.addr f.payload = some r) (s : State) :
    exec i s = .next (raiseViolation r s) := by
  rw [exec_frame hf, hr]

theorem exec_frame_of_pass {i : Instr} {k : FrameKind} {f : RxFrame} (hf : instrFrame i = some (k, f))
    (hpass : frameViolation k f.addr f.payload = none) (s : State) : exec i s = .next (receiveRule i s) := by
  rw [exec_frame hf, hpass]

theorem instrFrame_kind_ne_unknown {i : Instr} {k : FrameKind} {f : RxFrame} (hf : instrFrame i = some (k, f)) :
    k ≠ .unknown := by
  rintro rfl
  cases i <;> exact absurd hf nofun

theorem frameViolation_malformed {k : FrameKind} {a : Byte} {P : Bytes} (hknown : k ≠ .unknown)
    (hcarries : carriesPayload k = false) (hP : P ≠ []) : frameViolation k a P = some .malformed := by
  rw [frameViolation, if_neg hknown, if_pos ⟨hcarries, hP⟩]

theorem frameViolation_reserved {k : FrameKind} {a : Byte} {P : Bytes} (hknown : k ≠ .unknown)
    (hP : carriesPayload k = true ∨ P = []) (ha : a = 15) : frameViolation k a P = some .reservedAddress := by
  have hformed : ¬(carriesPayload k = false ∧ P ≠ []) := fun ⟨hcarries, hne⟩ =>
    hP.elim (ne_true_of_eq_false hcarries) hne
  rw [frameViolation, if_neg hknown, if_neg hformed, if_pos ha]

theorem frameViolation_ui {a : Byte} {P : Bytes} (h15 : a ≠ 15) (h0 : a ≠ 0) :
    frameViolation .ui a P = some .uiAddress := by
  have hformed : ¬(carriesPayload .ui = false ∧ P ≠ []) := fun ⟨hcarries, _⟩ => absurd hcarries nofun
  rw [frameViolation, if_neg nofun, if_neg hformed, if_neg h15, if_pos ⟨rfl, h0⟩]

/-- Settles O20: each check is the first that the frame fails. -/
theorem dispatchChecksInOrder : Obligations.DispatchChecksInOrder := by
  unfold Obligations.DispatchChecksInOrder
  intro i k f s hf
  have hknown := instrFrame_kind_ne_unknown hf
  refine ⟨fun hk hP => ?_, fun hP ha => ?_, fun hk h15 h0 => ?_⟩
  · have hcarries : carriesPayload k = false := by rcases hk with rfl | rfl | rfl | rfl | rfl <;> rfl
    exact exec_frame_of_violation hf (frameViolation_malformed hknown hcarries hP) s
  · have hformed : carriesPayload k = true ∨ f.payload = [] := by
      rcases hP with rfl | rfl | hP
      · exact .inl rfl
      · exact .inl rfl
      · exact .inr hP
    exact exec_frame_of_violation hf (frameViolation_reserved hknown hformed ha) s
  · subst hk
    exact exec_frame_of_violation hf (frameViolation_ui h15 h0) s

/-! ## A UI frame (43_frame_dispatch.md R221) -/

theorem exec_ui_of_addr_zero {f : RxFrame} (ha : f.addr = 0) (s : State) :
    exec (.ui f) s = .next (rxUI f.payload f.corrupt s) :=
  exec_frame_of_pass (k := .ui) rfl
    ((frameViolation_eq_none_iff _ _ _).mpr ⟨nofun, .inl rfl, by rw [ha]; decide, fun _ => ha⟩) s

/-- Settles O27: the checks of `rxUI` are the statement's in the same order. -/
theorem uiFrameBypassesArq : Obligations.UiFrameBypassesArq := by
  unfold Obligations.UiFrameBypassesArq
  intro f s ha x drop
  rw [exec_ui_of_addr_zero ha, rxUI]
  by_cases hcorrupt : f.corrupt = true
  · rw [if_pos hcorrupt, if_pos hcorrupt]
    rfl
  rw [if_neg hcorrupt, if_neg hcorrupt]
  by_cases hclosed : (s.ep 0).state ≠ .opened
  · rw [if_pos hclosed, if_pos hclosed]
    rfl
  rw [if_neg hclosed, if_neg hclosed]
  by_cases hfull : s.cfg.rxQueueCap ≤ (s.ep 0).rxQueue.length
  · rw [if_pos hfull, if_pos hfull]
    rfl
  · rw [if_neg hfull, if_neg hfull]
    rfl

/-! ## A U-Reset (43_frame_dispatch.md R222 to R224) -/

/-- The record that a peer's reset leaves: an Open endpoint starts afresh, a Closing one is Closed. -/
def Machine.Endpoint.peerReset (rtoInit : Nat) (x : Endpoint) : Endpoint :=
  if x.state = .opened then { x.flushed rtoInit with awaitingUack := false }
  else if x.state = .closing then { x.flushed rtoInit with state := .closed }
  else x

/-- What the host is told of a peer's reset. -/
def peerResetEvents (e : Byte) (st : EpState) : List Event :=
  if st = .opened then [.epReset e] else if st = .closing then [.epState e .closed] else []

/-- `peer_reset_endpoint` writes one record and tells the host. -/
theorem peerResetEndpoint_eq (e : Byte) (s : State) :
    peerResetEndpoint e s =
      { s.setEp e ((s.ep e).peerReset s.cfg.rtoInit) with
        output := s.output ++ peerResetEvents e (s.ep e).state } := by
  have hrest : s = { s.setEp e (s.ep e) with output := s.output ++ [] } := by
    rw [State.setEp_ep_eq, List.append_nil]
  unfold peerResetEndpoint Endpoint.peerReset peerResetEvents
  cases hst : (s.ep e).state with
  | opened | closing =>
    simp only [arqFlush, State.modEp_modEp]
    rfl
  | closed | connectionLost | error => exact hrest

theorem exec_ureset_of_addr_ne {f : RxFrame} (ha : f.addr ≠ 15) (hP : f.payload = []) (s : State) :
    exec (.ureset f) s = .next (rxURESET f.addr s) :=
  exec_frame_of_pass (k := .ureset) rfl (frameViolation_of_no_payload nofun nofun ha hP) s

theorem ctrlU_uack : ctrlU utypeUACK = 0xCE := rfl

/-- Settles O28: the U-Ack is queued, and `peerResetEndpoint_eq` gives the rest. -/
theorem uResetResetsOneEndpoint : Obligations.UResetResetsOneEndpoint := by
  unfold Obligations.UResetResetsOneEndpoint
  intro f s e x flushed acked h0 h15 hP
  have hep : (sendUACK e s).ep e = x := rfl
  rw [exec_ureset_of_addr_ne h15 hP, rxURESET, if_neg h0, peerResetEndpoint_eq, hep, Endpoint.peerReset, peerResetEvents,
    sendUACK, ctrlU_uack]
  by_cases hopen : x.state = .opened
  · rw [if_pos hopen, if_pos hopen, if_pos hopen]
    rfl
  rw [if_neg hopen, if_neg hopen, if_neg hopen]
  by_cases hclosing : x.state = .closing
  · rw [if_pos hclosing, if_pos hclosing, if_pos hclosing]
    rfl
  · rw [if_neg hclosing, if_neg hclosing, if_neg hclosing, List.append_nil]
    exact congrArg Host.Outcome.next (State.setEp_ep_eq acked e)

/-- Settles O29: the link reset leaves endpoint 0, which is then reset as any endpoint. -/
theorem uResetAtZeroResetsTheLink : Obligations.UResetAtZeroResetsTheLink := by
  unfold Obligations.UResetAtZeroResetsTheLink
  intro f s ha hP x
  obtain ⟨u, hu⟩ : ∃ u, u = sendUACK 0 (linkResetEndpoints 1 .peerReset s) := ⟨_, rfl⟩
  have hlink := linkResetEndpoints_eq 1 .peerReset s
  have hcfg : u.cfg = s.cfg := by rw [hu, sendUACK, State.emitFrame_cfg, hlink]
  have hep : ∀ e, u.ep e = if 1 ≤ e.toNat then (s.ep e).linkReset s.cfg.rtoInit else s.ep e := fun e => by
    rw [hu, sendUACK, State.emitFrame_ep, linkResetEndpoints_ep]
  have hzero : u.ep 0 = x := (hep 0).trans (if_neg (by decide))
  have hrun : exec (.ureset f) s = .next (peerResetEndpoint 0 u) := by
    rw [exec_ureset_of_addr_ne (by rw [ha]; decide) hP, rxURESET, ha, if_pos rfl, hu]
  have ht := peerResetEndpoint_eq 0 u
  rw [hzero, hcfg] at ht
  refine ⟨peerResetEndpoint 0 u, hrun, fun e he => ?_, ?_, ?_⟩
  · have hpos : 1 ≤ e.toNat := Nat.pos_of_ne_zero fun h => he (BitVec.eq_of_toNat_eq h)
    rw [ht]
    exact (State.setEp_ep_of_ne u _ he).trans ((hep e).trans (if_pos hpos))
  · rw [ht]
    exact State.setEp_ep_self u 0 _
  · obtain ⟨eps, hfields⟩ : ∃ eps, u = { s with
        eps := eps
        txQueue := (if 0 < s.txPos then s.txQueue.take 1 else []) ++ [frameBytes 0 0xCE []]
        violHist := []
        output := s.output ++ resetEvents s (endpointsFrom 1) ++ [.linkReset .peerReset] } := by
      refine ⟨(linkResetEndpoints 1 .peerReset s).eps, ?_⟩
      rw [hu, sendUACK, ctrlU_uack, State.emitFrame, hlink]
    rw [ht, hfields]
    rfl

/-! ## What a link reset leaves (45_endpoint_cmds.md R311) -/

/-- A record of a Closed endpoint with nothing in it. -/
def Machine.Endpoint.emptied (x : Endpoint) : Prop :=
  x.state = .closed ∧ x.nextTx = 0 ∧ x.expectedRx = 0 ∧ x.rtxQueue = [] ∧ x.pending = [] ∧ x.rxQueue = [] ∧
    x.rtxTimer.armed = false ∧ x.ackTimer.armed = false

/-- A legal Closed endpoint holds nothing. -/
theorem emptied_of_closed {cfg : Config} {e : Byte} {x : Endpoint} (h : EpInv cfg e x) (hclosed : x.state = .closed) :
    x.emptied := by
  have hout : x.state ≠ .opened := by rw [hclosed]; nofun
  obtain ⟨hrtx, hpending, -, hrtxTimer, hackTimer, -⟩ := h.idle_unless_open hout
  obtain ⟨htx, hrx⟩ := h.seq_open hout
  exact ⟨hclosed, htx, hrx, hrtx, hpending, h.rxQueue_open hout, hrtxTimer, hackTimer⟩

theorem emptied_linkReset {cfg : Config} {e : Byte} {x : Endpoint} (h : EpInv cfg e x) (rtoInit : Nat) :
    (x.linkReset rtoInit).emptied := by
  unfold Endpoint.linkReset
  split
  case isTrue hclosed => exact emptied_of_closed h hclosed
  case isFalse => exact ⟨rfl, rfl, rfl, rfl, rfl, rfl, rfl, rfl⟩

/-- At most the frame partly sent is left to send. -/
theorem linkResetEndpoints_txQueue_length (first : Nat) (c : ResetCause) (s : State) :
    (linkResetEndpoints first c s).txQueue.length ≤ 1 := by
  rw [linkResetEndpoints_eq]
  change (if 0 < s.txPos then s.txQueue.take 1 else []).length ≤ 1
  split
  · exact List.length_take_le 1 s.txQueue
  · exact Nat.zero_le 1

/-- Settles O34: a Closed endpoint is empty by the invariant, and any other is dropped. -/
theorem linkResetClosesEverything : Obligations.LinkResetClosesEverything := by
  unfold Obligations.LinkResetClosesEverything
  intro cause s hs
  have hempty : ∀ e, ((linkResetEndpoints 0 cause s).ep e).emptied := fun e => by
    rw [linkResetEndpoints_ep, if_pos (Nat.zero_le _)]
    exact emptied_linkReset (hs.ep e) _
  exact And.intro (linkResetEndpoints_txQueue_length 0 cause s) hempty

/-! ## CLOSE twice (45_endpoint_cmds.md R305) -/

/-- After a CLOSE the endpoint is one that CLOSE only answers. -/
theorem state_after_closeEp {e : Byte} {s t : State} (h : exec (.closeEp e) s = .next t) :
    (t.ep e).state = .closed ∨ (t.ep e).state = .closing ∨ (t.ep e).state = .error .securityIncident := by
  by_cases hsettled : (s.ep e).state = .closed ∨ (s.ep e).state = .closing ∨
      (s.ep e).state = .error .securityIncident
  · rw [exec_closeEp_of_settled hsettled] at h
    obtain rfl := Host.Outcome.next.inj h
    exact hsettled
  by_cases hopen : (s.ep e).state = .opened
  · rw [exec_closeEp_of_opened hopen] at h
    obtain rfl := Host.Outcome.next.inj h
    have hep : (closeOpened e s).ep e = (s.ep e).dropped s.cfg.rtoInit .closing := by
      simp only [closeOpened, sendURESET, State.out_ep, State.emitFrame_ep, State.modEp_ep_self, systemReset_ep_self]
    exact .inr (.inl (congrArg Endpoint.state hep))
  · rw [exec_closeEp_of_failed hsettled hopen] at h
    obtain rfl := Host.Outcome.next.inj h
    have hep : (closeFailed e s).ep e = { s.ep e with state := .closed } := by
      simp only [closeFailed, State.out_ep, State.modEp_ep_self]
    exact .inl (congrArg Endpoint.state hep)

/-- Settles O37: the first CLOSE leaves a state that the second only answers. -/
theorem closeIsIdempotent : Obligations.CloseIsIdempotent := by
  unfold Obligations.CloseIsIdempotent
  exact fun e s t h => exec_closeEp_of_settled (state_after_closeEp h)

end Sys2Proof
end

section
/-! SUPPORT. The one shape of what the rules of an endpoint write: its record, frames to send, events, and spent arming
stamps. Every operation of the ARQ sequencer in this shape (44_arq.md). -/

namespace Sys2Proof

open Machine

/-! ## The shape -/

/-- `s` with the record of `e` rewritten, frames and output events added, and `n` arming stamps spent. -/
def Machine.State.touched (s : State) (e : Byte) (y : Endpoint) (q : List Bytes) (o : List Event) (n : Nat) : State :=
  { s.setEp e y with txQueue := s.txQueue ++ q, output := s.output ++ o, armCounter := s.armCounter + n }

section
variable (s : State) (e : Byte) (y : Endpoint) (q : List Bytes) (o : List Event) (n : Nat)

@[simp] theorem touched_cfg : (s.touched e y q o n).cfg = s.cfg := rfl
@[simp] theorem touched_now : (s.touched e y q o n).now = s.now := rfl
@[simp] theorem touched_armCounter : (s.touched e y q o n).armCounter = s.armCounter + n := rfl
@[simp] theorem touched_rxPhase : (s.touched e y q o n).rxPhase = s.rxPhase := rfl
@[simp] theorem touched_rxBuf : (s.touched e y q o n).rxBuf = s.rxBuf := rfl
@[simp] theorem touched_rxNeed : (s.touched e y q o n).rxNeed = s.rxNeed := rfl
@[simp] theorem touched_session : (s.touched e y q o n).session = s.session := rfl
@[simp] theorem touched_txQueue : (s.touched e y q o n).txQueue = s.txQueue ++ q := rfl
@[simp] theorem touched_txPos : (s.touched e y q o n).txPos = s.txPos := rfl
@[simp] theorem touched_violHist : (s.touched e y q o n).violHist = s.violHist := rfl
@[simp] theorem touched_input : (s.touched e y q o n).input = s.input := rfl
@[simp] theorem touched_output : (s.touched e y q o n).output = s.output ++ o := rfl
@[simp] theorem touched_ep_self : (s.touched e y q o n).ep e = y := State.setEp_ep_self s e y

theorem touched_ep_of_ne {a : Byte} (h : a ≠ e) : (s.touched e y q o n).ep a = s.ep a := State.setEp_ep_of_ne s y h

theorem touched_ep (a : Byte) : (s.touched e y q o n).ep a = if a = e then y else s.ep a := by
  by_cases h : a = e
  · rw [if_pos h, h, touched_ep_self]
  · rw [if_neg h, touched_ep_of_ne s e y q o n h]

/-- Two writes of one record are one. -/
theorem touched_touched (y' : Endpoint) (q' : List Bytes) (o' : List Event) (n' : Nat) :
    (s.touched e y q o n).touched e y' q' o' n' = s.touched e y' (q ++ q') (o ++ o') (n + n') := by
  simp [State.touched, State.setEp, Nat.add_assoc]

end

/-! ## The operations in this shape -/

theorem out_eq_touched (e : Byte) (s : State) (ev : Event) : s.out ev = s.touched e (s.ep e) [] [ev] 0 := by
  rw [State.touched, State.setEp_ep_eq, List.append_nil]
  rfl

theorem emitFrame_eq_touched (e : Byte) (s : State) (F : Bytes) : s.emitFrame F = s.touched e (s.ep e) [F] [] 0 := by
  rw [State.touched, State.setEp_ep_eq, List.append_nil]
  rfl

theorem modEp_eq_touched (e : Byte) (s : State) (f : Endpoint → Endpoint) :
    s.modEp e f = s.touched e (f (s.ep e)) [] [] 0 := by
  rw [State.touched, List.append_nil, List.append_nil]
  rfl

theorem armRtx_eq_touched (e : Byte) (d : Nat) (s : State) :
    armRtx e d s = s.touched e { s.ep e with rtxTimer := s.armedTimer d } [] [] 1 := by
  rw [State.touched, List.append_nil, List.append_nil]
  rfl

theorem armAck_eq_touched (e : Byte) (d : Nat) (s : State) :
    armAck e d s = s.touched e { s.ep e with ackTimer := s.armedTimer d } [] [] 1 := by
  rw [State.touched, List.append_nil, List.append_nil]
  rfl

/-- The record after sending the frame F, its rtx timer armed unless it runs (44_arq.md R257). -/
def Machine.Endpoint.sends (F : Bytes) (s : State) (x : Endpoint) : Endpoint :=
  { x.afterSend F s.now with rtxTimer := if x.rtxTimer.armed then x.rtxTimer else s.armedTimer x.rto }

/-- How many arming stamps an operation spends that arms a timer unless it runs. -/
def stampsSpent (running : Bool) : Nat := if running then 0 else 1

theorem sendNew_eq_touched (e : Byte) (P : Bytes) (s : State) :
    let F := iFrameBytes s e (s.ep e).nextTx P
    sendNew e P s =
      s.touched e ((s.ep e).sends F s) [F] [] (stampsSpent (s.ep e).rtxTimer.armed) := by
  intro F
  have hcount : (if (s.ep e).rtxTimer.armed then s.armCounter else s.armCounter + 1) =
      s.armCounter + stampsSpent (s.ep e).rtxTimer.armed := by
    cases (s.ep e).rtxTimer.armed <;> rfl
  rw [sendNew_eq, hcount, State.touched, List.append_nil]
  rfl

/-- The record after its `k` oldest frames are acknowledged, its rtx timer cancelled or restarted (44_arq.md R260). -/
def Machine.Endpoint.releases (k : Nat) (s : State) (x : Endpoint) : Endpoint :=
  { x.acked s.cfg.rtoInit k with
    rtxTimer := if x.rtxQueue.length = k then Timer.off else s.armedTimer s.cfg.rtoInit }

theorem restartRtx_acked_eq_touched {s : State} {e : Byte} {k : Nat} (hk : k ≤ (s.ep e).rtxQueue.length) :
    restartRtx e (s.modEp e (Endpoint.acked s.cfg.rtoInit k)) =
      s.touched e ((s.ep e).releases k s) [] [] (stampsSpent (decide ((s.ep e).rtxQueue.length = k))) := by
  have hcount : (if (s.ep e).rtxQueue.length = k then s.armCounter else s.armCounter + 1) =
      s.armCounter + stampsSpent (decide ((s.ep e).rtxQueue.length = k)) := by
    by_cases h : (s.ep e).rtxQueue.length = k
    · rw [if_pos h, decide_eq_true h]
      rfl
    · rw [if_neg h, decide_eq_false h]
      rfl
  rw [restartRtx_acked hk, hcount, State.touched, List.append_nil, List.append_nil]
  rfl

theorem noteAckSent_eq_touched (e : Byte) (s : State) :
    noteAckSent e s = s.touched e { s.ep e with ackPending := false, ackTimer := Timer.off } [] [] 0 := by
  rw [noteAckSent_eq, modEp_eq_touched]

theorem foldl_retransmit_eq_touched (e : Byte) (l : List RtxEntry) (s : State) :
    l.foldl (retransmit e) s =
      s.touched e (s.ep e) (l.map (·.frame)) (l.map fun E => .retransmit e E.seq) 0 := by
  rw [foldl_retransmit, State.touched, State.setEp_ep_eq]
  rfl

theorem rtxFrom_of_empty {e : Byte} {s : State} (h : (s.ep e).rtxQueue = []) : rtxFrom e s = s :=
  if_pos (List.isEmpty_iff.mpr h)

/-- The retransmission of a whole queue (44_arq.md R264). -/
theorem rtxFrom_eq_touched {e : Byte} {s : State} (h : (s.ep e).rtxQueue ≠ []) :
    rtxFrom e s = s.touched e { s.ep e with rtxTimer := s.armedTimer (s.ep e).rto }
      ((s.ep e).rtxQueue.map (·.frame)) ((s.ep e).rtxQueue.map fun E => .retransmit e E.seq) 1 := by
  have hnot : ¬(s.ep e).rtxQueue.isEmpty = true := mt List.isEmpty_iff.mp h
  rw [rtxFrom, if_neg hnot, foldl_retransmit_eq_touched, armRtx_eq_touched, touched_ep_self, touched_touched,
    List.append_nil, List.append_nil]
  rfl

/-- The record after an in-order payload is accepted, its ack timer armed unless it runs (43_frame_dispatch.md R216). -/
def Machine.Endpoint.accepts (P : Bytes) (s : State) (x : Endpoint) : Endpoint :=
  { x.received P with ackTimer := if x.ackTimer.armed then x.ackTimer else s.armedTimer s.cfg.ackDelay }

theorem rxInOrder_eq_touched {s : State} {e : Byte} (hroom : (s.ep e).rxQueue.length < s.cfg.rxQueueCap) (P : Bytes) :
    rxInOrder e P s =
      s.touched e ((s.ep e).accepts P s) [] [.delivered e (some (s.ep e).expectedRx) P.length]
        (stampsSpent (s.ep e).ackTimer.armed) := by
  rw [rxInOrder_of_room (Nat.not_le_of_lt hroom)]
  cases hrun : (s.ep e).ackTimer.armed with
  | true =>
    have hrec : (s.ep e).accepts P s = (s.ep e).received P := by
      rw [Endpoint.accepts, hrun]
      rfl
    rw [if_pos rfl, out_eq_touched e, modEp_eq_touched, touched_ep_self, touched_touched, hrec]
    rfl
  | false =>
    have hrec : (s.ep e).accepts P s =
        { (s.ep e).received P with ackTimer := s.armedTimer s.cfg.ackDelay } := by
      rw [Endpoint.accepts, hrun]
      rfl
    rw [if_neg Bool.false_ne_true, out_eq_touched e, modEp_eq_touched, touched_ep_self, touched_touched,
      armAck_eq_touched, touched_ep_self, touched_touched, hrec]
    rfl

/-- The ack timer fires (44_arq.md R263). -/
theorem fireTimer_ack_eq_touched (e : Byte) (s : State) :
    fireTimer ⟨e, .ack⟩ s =
      if (s.ep e).state = .opened ∧ (s.ep e).ackPending = true then
        s.touched e { s.ep e with ackPending := false, ackTimer := Timer.off }
          [frameBytes e (ctrlS functionRR (s.ep e).expectedRx false) []] [] 0
      else s.touched e { s.ep e with ackTimer := Timer.off } [] [] 0 := by
  rw [fireTimer_ack, ctrlS_rr, State.touched, State.touched, List.append_nil, List.append_nil]
  rfl

/-- The record after an expiry that is not the last: the RTO doubled, the timer restarted (44_arq.md R270, R272). -/
def Machine.Endpoint.backsOff (s : State) (x : Endpoint) : Endpoint :=
  { x with
    retryCount := x.retryCount + 1
    rto := min (2 * x.rto) s.cfg.rtoMax
    rtxTimer := s.armedTimer (min (2 * x.rto) s.cfg.rtoMax) }

/-- The rtx timer fires (44_arq.md R270, R271). -/
theorem fireTimer_rtx_eq_touched (e : Byte) (s : State) :
    fireTimer ⟨e, .rtx⟩ s =
      if s.cfg.maxRetries < (s.ep e).retryCount + 1 then
        s.touched e ((s.ep e).dropped s.cfg.rtoInit (.error .faultNoAck)) []
          [.timeout e ((s.ep e).retryCount + 1), .epState e (.error .faultNoAck)] 0
      else
        s.touched e ((s.ep e).backsOff s) (((s.ep e).rtxQueue.take 1).map (·.frame))
          (.timeout e ((s.ep e).retryCount + 1) :: ((s.ep e).rtxQueue.take 1).map fun E => .retransmit e E.seq) 1 := by
  rw [fireTimer_rtx rfl, State.touched, State.touched, List.append_nil]
  rfl

end Sys2Proof
end

section
/-! SUPPORT. What draining the pending writes sends, where the retransmit queue starts after an ack, and the REJ that
repeats it (44_arq.md R258 to R265; 43_frame_dispatch.md R220). -/

namespace Sys2Proof

open Machine

/-! ## Draining (44_arq.md R258) -/

/-- The state after one round of a drain: the oldest pending payload is sent and its number told. -/
def drainRound (e : Byte) (P : Bytes) (rest : List Bytes) (s : State) : State :=
  (sendNew e P (s.modEp e fun x => { x with pending := rest })).out (.pendingSent e (s.ep e).nextTx)

/-- Sending a payload that was taken from the pending list. -/
theorem sendNew_pending_eq_touched (e : Byte) (P : Bytes) (rest : List Bytes) (s : State) :
    let F := iFrameBytes s e (s.ep e).nextTx P
    sendNew e P (s.modEp e fun x => { x with pending := rest }) =
      s.touched e (({ s.ep e with pending := rest } : Endpoint).sends F s) [F] []
        (stampsSpent (s.ep e).rtxTimer.armed) := by
  intro F
  rw [modEp_eq_touched, sendNew_eq_touched, touched_touched, touched_ep_self, iFrameBytes, touched_ep_self]
  simp only [List.nil_append, Nat.zero_add]
  rfl

theorem drainRound_eq_touched (e : Byte) (P : Bytes) (rest : List Bytes) (s : State) :
    let F := iFrameBytes s e (s.ep e).nextTx P
    drainRound e P rest s =
      s.touched e (({ s.ep e with pending := rest } : Endpoint).sends F s) [F] [.pendingSent e (s.ep e).nextTx]
        (stampsSpent (s.ep e).rtxTimer.armed) := by
  intro F
  rw [drainRound, sendNew_pending_eq_touched, out_eq_touched e, touched_ep_self, touched_touched]
  rfl

/-- The stored I-frame of the `n`-th payload that a drain sends from the record `x`. -/
def drainEntry (e : Byte) (x : Endpoint) (now n : Nat) (P : Bytes) : RtxEntry :=
  let S := x.nextTx + BitVec.ofNat 3 n
  { seq := S, frame := frameBytes e (ctrlI S x.expectedRx true) P, sendTime := now }

theorem drainEntry_zero (e : Byte) (P : Bytes) (s : State) :
    drainEntry e (s.ep e) s.now 0 P =
      { seq := (s.ep e).nextTx, frame := iFrameBytes s e (s.ep e).nextTx P, sendTime := s.now } := by
  rw [drainEntry, BitVec.add_zero]
  rfl

/-- The entries of the later payloads, counted from the record after the first. -/
theorem mapIdx_drainEntry_cons (e : Byte) {x y : Endpoint} (now : Nat) (P : Bytes) (sent : List Bytes)
    (hnext : y.nextTx = x.nextTx + 1#3) (hack : y.expectedRx = x.expectedRx) :
    (P :: sent).mapIdx (drainEntry e x now) = drainEntry e x now 0 P :: sent.mapIdx (drainEntry e y now) := by
  rw [List.mapIdx_cons]
  refine congrArg (_ :: List.mapIdx · sent) ?_
  funext n Q
  have hseq : x.nextTx + BitVec.ofNat 3 (n + 1) = y.nextTx + BitVec.ofNat 3 n := by
    rw [hnext, BitVec.ofNat_add, BitVec.add_assoc, BitVec.add_comm (BitVec.ofNat 3 n)]
  rw [drainEntry, drainEntry, hseq, hack]

/-- From `s` to `t`, endpoint `e` has sent these payloads, the first of its pending ones. -/
structure SentFrom (e : Byte) (s t : State) (sent : List Bytes) : Prop where
  pending : (s.ep e).pending = sent ++ (t.ep e).pending
  stored : (t.ep e).rtxQueue = (s.ep e).rtxQueue ++ sent.mapIdx (drainEntry e (s.ep e) s.now)
  next : (t.ep e).nextTx = (s.ep e).nextTx + BitVec.ofNat 3 sent.length
  queued : t.txQueue = s.txQueue ++ (sent.mapIdx (drainEntry e (s.ep e) s.now)).map (·.frame)
  told : t.output = s.output ++ (sent.mapIdx (drainEntry e (s.ep e) s.now)).map fun E => .pendingSent e E.seq

theorem SentFrom.nothing (e : Byte) (s : State) : SentFrom e s s [] where
  pending := rfl
  stored := (List.append_nil _).symm
  next := (BitVec.add_zero _).symm
  queued := (List.append_nil _).symm
  told := (List.append_nil _).symm

/-- A payload sent ahead of others. -/
theorem SentFrom.cons {e : Byte} {s t : State} {P : Bytes} {rest sent : List Bytes}
    (hpending : (s.ep e).pending = P :: rest) (h : SentFrom e (drainRound e P rest s) t sent) :
    SentFrom e s t (P :: sent) := by
  rw [drainRound_eq_touched] at h
  obtain ⟨hleft, hstored, hnext, hqueued, htold⟩ := h
  rw [touched_ep_self] at hleft hstored hnext hqueued htold
  rw [touched_now] at hstored hqueued htold
  have hrest : rest = sent ++ (t.ep e).pending := hleft
  have hcons := mapIdx_drainEntry_cons e (x := s.ep e)
    (y := ({ s.ep e with pending := rest } : Endpoint).sends (iFrameBytes s e (s.ep e).nextTx P) s) s.now P sent rfl rfl
  rw [drainEntry_zero] at hcons
  refine ⟨by rw [hpending, hrest, List.cons_append], ?_, ?_, ?_, ?_⟩
  · rw [hcons, hstored]
    exact List.append_assoc _ _ _
  · rw [hnext, List.length_cons, BitVec.ofNat_add, BitVec.add_comm (BitVec.ofNat 3 sent.length), ← BitVec.add_assoc]
    rfl
  · rw [hcons, hqueued]
    exact List.append_assoc _ _ _
  · rw [hcons, htold]
    exact List.append_assoc _ _ _

theorem drainLoop_sentFrom (e : Byte) (n : Nat) (s : State) : ∃ sent, SentFrom e s (drainLoop e n s) sent := by
  induction n generalizing s with
  | zero => exact ⟨[], .nothing e s⟩
  | succ n ih =>
    rcases drainLoop_cases e n s with ⟨hstop, -⟩ | ⟨P, rest, hpending, -, hround⟩
    · rw [hstop]
      exact ⟨[], .nothing e s⟩
    · obtain ⟨sent, hsent⟩ := ih (drainRound e P rest s)
      rw [hround]
      exact ⟨P :: sent, .cons hpending hsent⟩

/-- Settles O44: by rounds, each sending the oldest pending payload; `drainPending_drained` says where it stops. -/
theorem drainSendsOldestFirst : Obligations.DrainSendsOldestFirst := by
  unfold Obligations.DrainSendsOldestFirst
  intro e s x t entry
  obtain ⟨sent, hpending, hstored, hnext, hqueued, htold⟩ := drainLoop_sentFrom e (s.ep e).pending.length s
  exact ⟨sent, hpending, hstored, hnext, hqueued, htold, drainPending_drained e s⟩

/-! ## The head of the retransmit queue after an ack (44_arq.md R261) -/

/-- The ack's distance from the base leads back to the ack. -/
theorem ackBase_add_ackCount (x : Endpoint) (A : Seq) : ackBase x + BitVec.ofNat 3 (ackCount x A) = A := by
  rw [ackCount, BitVec.ofNat_toNat, BitVec.setWidth_eq, BitVec.add_comm, BitVec.sub_add_cancel]

theorem ackValid_iff (x : Endpoint) (A : Seq) : ackValid x A = true ↔ ackCount x A ≤ x.rtxQueue.length := by
  rw [ackValid, decide_eq_true_eq]

theorem head_seq_of_ackBase {x : Endpoint} {E : RtxEntry} (h : x.rtxQueue.head? = some E) : ackBase x = E.seq := by
  rw [ackBase_eq_getD, h]
  rfl

/-- What a drain leaves at the head of the retransmit queue: the frame that was there, or else one of number
`next_tx`. -/
theorem drainPending_head {e : Byte} {s : State} {E : RtxEntry}
    (h : ((drainPending e s).ep e).rtxQueue.head? = some E) : E.seq = ackBase (s.ep e) := by
  obtain ⟨sent, -, hstored, -⟩ := drainLoop_sentFrom e (s.ep e).pending.length s
  rw [drainPending, hstored] at h
  cases hq : (s.ep e).rtxQueue with
  | cons E' l =>
    rw [hq] at h
    obtain rfl := Option.some.inj h
    rw [ackBase, hq]
  | nil =>
    rw [hq, List.nil_append] at h
    cases sent with
    | nil => exact absurd h nofun
    | cons P sent =>
      rw [List.mapIdx_cons] at h
      obtain rfl := Option.some.inj h
      rw [drainEntry_zero, ackBase, hq]

/-- After a valid ack has released its frames, the base is the ack. -/
theorem ackBase_releases {cfg : Config} {e : Byte} {x : Endpoint} {A : Seq} (hx : EpInv cfg e x)
    (hvalid : ackValid x A = true) (s : State) : ackBase (x.releases (ackCount x A) s) = A := by
  have hk : ackCount x A ≤ x.rtxQueue.length := (ackValid_iff x A).mp hvalid
  have hqueue : (x.releases (ackCount x A) s).rtxQueue = x.rtxQueue.drop (ackCount x A) := rfl
  have hnext : (x.releases (ackCount x A) s).nextTx = x.nextTx := rfl
  rw [ackBase, hqueue, hnext]
  cases hdrop : x.rtxQueue.drop (ackCount x A) with
  | nil =>
    have hall : ackCount x A = x.rtxQueue.length := Nat.le_antisymm hk (List.drop_eq_nil_iff.mp hdrop)
    change x.nextTx = A
    rw [hx.next_after_last, ← hall, ackBase_add_ackCount]
  | cons E l =>
    have hE : x.rtxQueue[ackCount x A]? = some E := by
      rw [← List.head?_drop, hdrop, List.head?_cons]
    change E.seq = A
    rw [hx.consecutive _ E hE, ackBase_add_ackCount]

/-- Settles O25: with nothing to release the base is the ack already; else it is once the frames are released, and the
drain keeps it at the head. -/
theorem headAfterAckIsA : Obligations.HeadAfterAckIsA := by
  unfold Obligations.HeadAfterAckIsA
  intro e A s E hinv hvalid hhead
  have hk : ackCount (s.ep e) A ≤ (s.ep e).rtxQueue.length := (ackValid_iff _ A).mp hvalid
  rcases processAck_cases e A s with ⟨hinvalid, -⟩ | ⟨-, hzero, hack⟩ | ⟨-, -, hack⟩
  · exact absurd hvalid (ne_true_of_eq_false hinvalid)
  · rw [hack] at hhead
    have hbase := ackBase_add_ackCount (s.ep e) A
    rw [hzero, BitVec.add_zero] at hbase
    rw [← head_seq_of_ackBase hhead, hbase]
  · rw [hack] at hhead
    rw [drainPending_head hhead, State.out_ep, restartRtx_acked_eq_touched hk, touched_ep_self]
    exact ackBase_releases hinv hvalid s

/-! ## A REJ (43_frame_dispatch.md R220) -/

theorem rxREJ_of_ready {s : State} {e : Byte} (h : openReady s e = true) (A : Seq) :
    rxREJ e A s =
      if ackValid (s.ep e) A = false then processAck e A s else rtxFrom e (processAck e A s) :=
  if_neg (ne_false_of_eq_true h)

/-- Settles O26: the ack is invalid, or nothing is stored after it, or all that is stored is sent again. -/
theorem rejRetransmitsFromA : Obligations.RejRetransmitsFromA := by
  unfold Obligations.RejRetransmitsFromA
  intro f pf A s e u y ha hP hopen hwait
  rw [exec_rej_of_addr_ne ha hP, rxREJ_of_ready ((openReady_eq_true_iff s f.addr).mpr ⟨hopen, hwait⟩)]
  by_cases hvalid : ackValid (s.ep e) A = false
  · rw [if_pos hvalid, if_pos (.inl hvalid)]
  rw [if_neg hvalid]
  by_cases hnone : y.rtxQueue = []
  · rw [rtxFrom_of_empty hnone, if_pos (.inr hnone)]
  · rw [rtxFrom_eq_touched hnone, if_neg (not_or.mpr ⟨hvalid, hnone⟩)]
    rfl

/-! ## A TICK with nothing due (44_arq.md R280) -/

/-- Settles O47: the loop of TICK stops at once. -/
theorem tickWithNothingDue : Obligations.TickWithNothingDue := by
  unfold Obligations.TickWithNothingDue
  intro s h
  have hnone : nextDue (s.setNow (s.now + 1)) = none :=
    nextDue_eq_none fun t => (isDue_eq_false_iff _ _).mpr (h t)
  rw [exec, execTick, fireDue_of_none _ _ hnone]
  rfl

end Sys2Proof
end

section
/-! SUPPORT. Everything an instruction can do, said once: the single steps that a rule takes on one endpoint
(`Touch`), and what runs of such steps each instruction is (`Ran`). -/

namespace Sys2Proof

open Machine

/-! ## The steps of the rules on one endpoint -/

/-- One step of a rule on endpoint `e`, while instruction `i` runs: the record it leaves, the frames it queues, the
events it emits and the arming stamps it spends. A constructor asks of `i` and of the record what the rule has checked
by then. -/
inductive Touch (i : Instr) (s : State) (e : Byte) : Endpoint → List Bytes → List Event → Nat → Prop
  /-- the host is told something (60_exceptions.md R355) -/
  | tells (o : List Event) : Touch i s e (s.ep e) [] o 0
  /-- an S-, U- or UI-frame is queued (41_framer_tx.md R163) -/
  | emits (c : Byte) (P : Bytes) : kind c ≠ .unknown → kind c ≠ .i → P.length ≤ s.cfg.mtu →
      Touch i s e (s.ep e) [frameBytes e c P] [] 0
  /-- a payload is sent as a new I-frame, the oldest pending one or one of WRITE (44_arq.md R257) -/
  | sends (P : Bytes) (rest : List Bytes) :
      ((s.ep e).pending = P :: rest ∨ P.length ≤ s.cfg.mtu ∧ (s.ep e).pending = rest) → canSend s e = true →
      Touch i s e (({ s.ep e with pending := rest } : Endpoint).sends (iFrameBytes s e (s.ep e).nextTx P) s)
        [iFrameBytes s e (s.ep e).nextTx P] [] (stampsSpent (s.ep e).rtxTimer.armed)
  /-- a payload waits (44_arq.md R255) -/
  | waits (P : Bytes) : (s.ep e).state = .opened → P.length ≤ s.cfg.mtu → (s.ep e).pending.length < s.cfg.pendingCap →
      Touch i s e { s.ep e with pending := (s.ep e).pending ++ [P] } [] [] 0
  /-- the oldest frames are acknowledged (44_arq.md R260) -/
  | releases (k : Nat) : (s.ep e).state = .opened → k ≤ (s.ep e).rtxQueue.length →
      Touch i s e ((s.ep e).releases k s) [] [] (stampsSpent (decide ((s.ep e).rtxQueue.length = k)))
  /-- the ack owed counts as sent (44_arq.md R262) -/
  | acks : Touch i s e { s.ep e with ackPending := false, ackTimer := Timer.off } [] [] 0
  /-- every stored frame is sent again (44_arq.md R264) -/
  | repeats : (s.ep e).state = .opened → (s.ep e).rtxQueue ≠ [] →
      Touch i s e { s.ep e with rtxTimer := s.armedTimer (s.ep e).rto } ((s.ep e).rtxQueue.map (·.frame))
        ((s.ep e).rtxQueue.map fun E => .retransmit e E.seq) 1
  /-- an in-order payload is accepted (43_frame_dispatch.md R216) -/
  | accepts (f : RxFrame) (n A : Seq) (pf : Bool) : i = .iFrame f n pf A → f.addr = e → (s.ep e).state = .opened →
      (s.ep e).rxQueue.length < s.cfg.rxQueueCap →
      Touch i s e ((s.ep e).accepts f.payload s) [] [.delivered e (some (s.ep e).expectedRx) f.payload.length]
        (stampsSpent (s.ep e).ackTimer.armed)
  /-- the payload of a UI frame is accepted (43_frame_dispatch.md R221) -/
  | acceptsUI (f : RxFrame) : i = .ui f → e = 0 → (s.ep e).state = .opened →
      (s.ep e).rxQueue.length < s.cfg.rxQueueCap →
      Touch i s e { s.ep e with rxQueue := (s.ep e).rxQueue ++ [f.payload] } [] [] 0
  /-- the peer resets the endpoint (43_frame_dispatch.md R223) -/
  | peerResets (f : RxFrame) : i = .ureset f → f.addr = e → f.payload = [] →
      Touch i s e ((s.ep e).peerReset s.cfg.rtoInit) [] (peerResetEvents e (s.ep e).state) 0
  /-- the U-Ack of an OPEN has come (43_frame_dispatch.md R225) -/
  | opensUp : Touch i s e { s.ep e with awaitingUack := false } [] [] 0
  /-- the U-Ack of a CLOSE has come (43_frame_dispatch.md R225) -/
  | closes (f : RxFrame) : i = .uack f → f.addr = e → f.payload = [] → (s.ep e).state = .closing →
      Touch i s e { s.ep e with state := .closed } [] [] 0
  /-- OPEN is accepted (45_endpoint_cmds.md R300) -/
  | opens (w : BitVec 3) (enc : Bool) : i = .openEp e w enc → openRefusal e w (s.ep e).state = none →
      Touch i s e ((s.ep e).openedWith s.cfg.rtoInit e w enc) [] [] 0
  /-- CLOSE of an Open endpoint (45_endpoint_cmds.md R302) -/
  | startsClosing : i = .closeEp e → (s.ep e).state = .opened →
      Touch i s e ((s.ep e).dropped s.cfg.rtoInit .closing) [] [] 0
  /-- CLOSE of a lost or failed endpoint (45_endpoint_cmds.md R303) -/
  | leavesFailed : i = .closeEp e →
      ((s.ep e).state = .connectionLost ∨ ∃ x, (s.ep e).state = .error x ∧ x ≠ .securityIncident) →
      Touch i s e { s.ep e with state := .closed } [] [] 0
  /-- FAIL (45_endpoint_cmds.md R306) -/
  | fails (cause : FailCause) : i = .fail e cause → e ≠ 15 →
      ¬((s.ep e).state = .error .securityIncident ∧ cause ≠ .securityIncident) →
      Touch i s e ((s.ep e).dropped s.cfg.rtoInit (.error (errorOfCause cause))) [] [] 0
  /-- the oldest received payload is taken (45_endpoint_cmds.md R312) -/
  | pops (P : Bytes) (rest : List Bytes) : i = .rxPop e → (s.ep e).rxQueue = P :: rest →
      Touch i s e { s.ep e with rxQueue := rest } [] [] 0
  /-- the rtx timer expires and the oldest frame is sent again (44_arq.md R270) -/
  | expires : i = .tick → (s.ep e).rtxTimer.armed = true → (s.ep e).retryCount + 1 ≤ s.cfg.maxRetries →
      Touch i s e ((s.ep e).backsOff s) (((s.ep e).rtxQueue.take 1).map (·.frame))
        (.timeout e ((s.ep e).retryCount + 1) :: ((s.ep e).rtxQueue.take 1).map fun E => .retransmit e E.seq) 1
  /-- the rtx timer expires once too often (44_arq.md R271) -/
  | givesUp : i = .tick → (s.ep e).rtxTimer.armed = true →
      Touch i s e ((s.ep e).dropped s.cfg.rtoInit (.error .faultNoAck)) []
        [.timeout e ((s.ep e).retryCount + 1), .epState e (.error .faultNoAck)] 0
  /-- the ack timer expires with no ack owed (44_arq.md R263) -/
  | lapses : i = .tick → Touch i s e { s.ep e with ackTimer := Timer.off } [] [] 0

/-- One such step, from state to state. -/
inductive LocalStep (i : Instr) (e : Byte) (s : State) : State → Prop
  | touch {y : Endpoint} {q : List Bytes} {o : List Event} {n : Nat} : Touch i s e y q o n →
      LocalStep i e s (s.touched e y q o n)

/-- Any number of steps of the relation `r`, one after another. -/
inductive Steps (r : State → State → Prop) (s : State) : State → Prop
  | refl : Steps r s s
  | tail {t u : State} : Steps r s t → r t u → Steps r s u

theorem Steps.trans {r : State → State → Prop} {s t u : State} (h1 : Steps r s t) (h2 : Steps r t u) : Steps r s u := by
  induction h2 with
  | refl => exact h1
  | tail _ hlast ih => exact ih.tail hlast

theorem Steps.mono {r r' : State → State → Prop} (hr : ∀ s t, r s t → r' s t) {s t : State} (h : Steps r s t) :
    Steps r' s t := by
  induction h with
  | refl => exact .refl
  | tail _ hlast ih => exact ih.tail (hr _ _ hlast)

/-- A run of steps on one endpoint. -/
def LocalRun (i : Instr) (e : Byte) : State → State → Prop := Steps (LocalStep i e)

/-- A run of steps, each on some endpoint. -/
def AnyRun (i : Instr) : State → State → Prop := Steps fun s t => ∃ e, LocalStep i e s t

theorem LocalRun.refl (i : Instr) (e : Byte) (s : State) : LocalRun i e s s := Steps.refl

theorem LocalRun.trans {i : Instr} {e : Byte} {s t u : State} (h1 : LocalRun i e s t) (h2 : LocalRun i e t u) :
    LocalRun i e s u := Steps.trans h1 h2

theorem LocalRun.any {i : Instr} {e : Byte} {s t : State} (h : LocalRun i e s t) : AnyRun i s t :=
  Steps.mono (fun _ _ hstep => ⟨e, hstep⟩) h

theorem LocalRun.of_touch {i : Instr} {e : Byte} {s t : State} {y : Endpoint} {q : List Bytes} {o : List Event}
    {n : Nat} (h : Touch i s e y q o n) (ht : t = s.touched e y q o n) : LocalRun i e s t :=
  ht ▸ Steps.tail .refl (.touch h)

/-- What every step keeps, a run keeps. -/
theorem LocalRun.keeps {i : Instr} {e : Byte} {s t : State} {p : State → Prop} (h : LocalRun i e s t) (hs : p s)
    (hstep : ∀ u y q o n, p u → Touch i u e y q o n → p (u.touched e y q o n)) : p t := by
  induction h with
  | refl => exact hs
  | tail _ hlast ih =>
    obtain ⟨htouch⟩ := hlast
    exact hstep _ _ _ _ _ ih htouch

theorem AnyRun.keeps {i : Instr} {s t : State} {p : State → Prop} (h : AnyRun i s t) (hs : p s)
    (hstep : ∀ u e y q o n, p u → Touch i u e y q o n → p (u.touched e y q o n)) : p t := by
  induction h with
  | refl => exact hs
  | tail _ hlast ih =>
    obtain ⟨e, ⟨htouch⟩⟩ := hlast
    exact hstep _ e _ _ _ _ ih htouch

/-! ## The operations as runs of steps -/

section
variable (i : Instr) (e : Byte) (s : State)

theorem run_out (ev : Event) : LocalRun i e s (s.out ev) :=
  .of_touch (.tells [ev]) (out_eq_touched e s ev)

theorem run_emit {c : Byte} {P : Bytes} (hknown : kind c ≠ .unknown) (hnotI : kind c ≠ .i)
    (hP : P.length ≤ s.cfg.mtu) : LocalRun i e s (s.emitFrame (frameBytes e c P)) :=
  .of_touch (.emits c P hknown hnotI hP) (emitFrame_eq_touched e s _)

theorem run_noteAckSent : LocalRun i e s (noteAckSent e s) :=
  .of_touch .acks (noteAckSent_eq_touched e s)

theorem kind_ctrlS_rr : ∀ A : Seq, kind (ctrlS functionRR A false) = .rr := by decide

theorem kind_ctrlS_rej : ∀ A : Seq, kind (ctrlS functionREJ A false) = .rej := by decide

theorem run_sendRR : LocalRun i e s (sendRR e s) :=
  run_emit i e s (by rw [kind_ctrlS_rr]; nofun) (by rw [kind_ctrlS_rr]; nofun) (Nat.zero_le _)

theorem run_sendREJ : LocalRun i e s (sendREJ e s) :=
  run_emit i e s (by rw [kind_ctrlS_rej]; nofun) (by rw [kind_ctrlS_rej]; nofun) (Nat.zero_le _)

theorem run_sendURESET : LocalRun i e s (sendURESET e s) :=
  run_emit i e s (by decide) (by decide) (Nat.zero_le _)

theorem run_sendUACK : LocalRun i e s (sendUACK e s) :=
  run_emit i e s (by decide) (by decide) (Nat.zero_le _)

theorem run_drainRound {P : Bytes} {rest : List Bytes} (hpending : (s.ep e).pending = P :: rest)
    (hsend : canSend s e = true) : LocalRun i e s (drainRound e P rest s) :=
  (LocalRun.of_touch (.sends P rest (.inl hpending) hsend) (sendNew_pending_eq_touched e P rest s)).trans
    (run_out i e _ _)

theorem run_drainLoop (n : Nat) : LocalRun i e s (drainLoop e n s) := by
  induction n generalizing s with
  | zero => exact .refl i e s
  | succ n ih =>
    rcases drainLoop_cases e n s with ⟨hstop, -⟩ | ⟨P, rest, hpending, hsend, hround⟩
    · rw [hstop]
      exact .refl i e s
    · rw [hround]
      exact (run_drainRound i e s hpending hsend).trans (ih _)

theorem run_drainPending : LocalRun i e s (drainPending e s) := run_drainLoop i e s _

/-- An acknowledgement on an Open endpoint (44_arq.md R260). -/
theorem run_processAck (A : Seq) (hopen : (s.ep e).state = .opened) : LocalRun i e s (processAck e A s) := by
  rcases processAck_cases e A s with ⟨-, hack⟩ | ⟨-, -, hack⟩ | ⟨hvalid, -, hack⟩
  · rw [hack]
    exact run_out i e s _
  · rw [hack]
    exact .refl i e s
  · rw [hack]
    have hk := (ackValid_iff _ A).mp hvalid
    exact ((LocalRun.of_touch (.releases _ hopen hk) (restartRtx_acked_eq_touched hk)).trans (run_out i e _ _)).trans
      (run_drainPending i e _)

end

/-! ## The state of an endpoint under these steps (45_endpoint_cmds.md R316) -/

/-- The state that a step of instruction `i` on endpoint `e` makes of a record, and what the rule has checked. -/
inductive StateChange (i : Instr) (e : Byte) (x : Endpoint) : EpState → Prop
  | none : StateChange i e x x.state
  | closed (f : RxFrame) : i = .uack f ∨ i = .ureset f → f.addr = e → f.payload = [] → x.state = .closing →
      StateChange i e x .closed
  | freed : i = .closeEp e → (x.state = .connectionLost ∨ ∃ k, x.state = .error k ∧ k ≠ .securityIncident) →
      StateChange i e x .closed
  | opened (w : BitVec 3) (enc : Bool) : i = .openEp e w enc → e ≠ 15 → x.state ≠ .closing →
      x.state ≠ .error .securityIncident → StateChange i e x .opened
  | closing : i = .closeEp e → x.state = .opened → StateChange i e x .closing
  | failed (cause : FailCause) : i = .fail e cause → e ≠ 15 →
      ¬(x.state = .error .securityIncident ∧ cause ≠ .securityIncident) →
      StateChange i e x (.error (errorOfCause cause))
  | gaveUp : i = .tick → x.rtxTimer.armed = true → StateChange i e x (.error .faultNoAck)

theorem openRefusal_none {e : Byte} {w : BitVec 3} {st : EpState} (h : openRefusal e w st = none) :
    e ≠ 15 ∧ w ≠ 0 ∧ st ≠ .opened ∧ st ≠ .closing ∧ st ≠ .error .securityIncident := by
  rw [openRefusal_eq] at h
  by_cases hep : e = 15
  · rw [if_pos hep] at h
    exact absurd h nofun
  rw [if_neg hep] at h
  by_cases hwindow : w = 0
  · rw [if_pos hwindow] at h
    exact absurd h nofun
  rw [if_neg hwindow] at h
  by_cases hopen : st = .opened ∨ st = .closing
  · rw [if_pos hopen] at h
    exact absurd h nofun
  rw [if_neg hopen] at h
  obtain ⟨hopened, hclosing⟩ := not_or.mp hopen
  by_cases hsticky : st = .error .securityIncident
  · rw [if_pos hsticky] at h
    exact absurd h nofun
  · exact ⟨hep, hwindow, hopened, hclosing, hsticky⟩

/-- The state after a peer's reset. -/
theorem peerReset_state (rtoInit : Nat) (x : Endpoint) :
    (x.peerReset rtoInit).state = if x.state = .closing then .closed else x.state := by
  unfold Endpoint.peerReset
  by_cases hopen : x.state = .opened
  · rw [if_pos hopen, hopen]
    exact hopen
  · rw [if_neg hopen]
    split <;> rfl

theorem Touch.stateChange {i : Instr} {s : State} {e : Byte} {y : Endpoint} {q : List Bytes} {o : List Event} {n : Nat}
    (h : Touch i s e y q o n) : StateChange i e (s.ep e) y.state := by
  cases h with
  | tells | emits | sends | waits | releases | acks | repeats | accepts | acceptsUI | opensUp | pops | expires | lapses =>
    exact .none
  | peerResets f hi hf hP =>
    rw [peerReset_state]
    split
    case isTrue hclosing => exact .closed f (.inr hi) hf hP hclosing
    case isFalse => exact .none
  | closes f hi hf hP hclosing => exact .closed f (.inl hi) hf hP hclosing
  | opens w enc hi hopen =>
    obtain ⟨hep, -, -, hclosing, hsticky⟩ := openRefusal_none hopen
    exact .opened w enc hi hep hclosing hsticky
  | startsClosing hi hopen => exact .closing hi hopen
  | leavesFailed hi hst => exact .freed hi hst
  | fails cause hi hep hst => exact .failed cause hi hep hst
  | givesUp hi harmed => exact .gaveUp hi harmed

/-- The instructions whose steps can change the state of an endpoint. -/
def changesState : Instr → Bool
  | .uack _ | .ureset _ | .openEp _ _ _ | .closeEp _ | .fail _ _ | .tick => true
  | .iFrame _ _ _ _ | .rr _ _ _ | .rej _ _ _ | .ui _ | .upf _ | .write _ _ | .uiSend _ _ | .rxPop _ | .status _
  | .linkReset | .secState _ | .rxByte _ | .txPull => false

theorem StateChange.eq_of_unchanging {i : Instr} {e : Byte} {x : Endpoint} {st : EpState} (h : StateChange i e x st)
    (hi : changesState i = false) : st = x.state := by
  cases h with
  | none => rfl
  | closed f hf =>
    rcases hf with rfl | rfl
    · exact absurd hi nofun
    · exact absurd hi nofun
  | freed hf | opened _ _ hf | closing hf | failed _ hf | gaveUp hf =>
    subst hf
    exact absurd hi nofun

/-- A run of any other instruction leaves every endpoint's state. -/
theorem AnyRun.state_eq {i : Instr} {s t : State} (h : AnyRun i s t) (hi : changesState i = false) (a : Byte) :
    (t.ep a).state = (s.ep a).state := by
  refine h.keeps (p := fun u => (u.ep a).state = (s.ep a).state) rfl ?_
  intro u e y q o n hu htouch
  rw [touched_ep]
  split
  case isTrue hae => rw [htouch.stateChange.eq_of_unchanging hi, ← hae, hu]
  case isFalse => exact hu

/-! ## The receive rules as runs of steps (43_frame_dispatch.md) -/

section
variable (s : State)

theorem run_rxInOrder {i : Instr} {f : RxFrame} {n A : Seq} {pf : Bool} (hi : i = .iFrame f n pf A)
    (hopen : (s.ep f.addr).state = .opened) : LocalRun i f.addr s (rxInOrder f.addr f.payload s) := by
  by_cases hroom : (s.ep f.addr).rxQueue.length < s.cfg.rxQueueCap
  · exact .of_touch (.accepts f n A pf hi rfl hopen hroom) (rxInOrder_eq_touched hroom _)
  · rw [rxInOrder_of_full (Nat.le_of_not_lt hroom)]
    exact run_out i _ s _

/-- What follows the drop of an I-frame that is answered by an S-frame. -/
theorem run_answered (i : Instr) (e : Byte) (ev : Event) {send : State → State}
    (hsend : ∀ u, LocalRun i e u (send u)) : LocalRun i e s (noteAckSent e (send (s.out ev))) :=
  ((run_out i e s ev).trans (hsend _)).trans (run_noteAckSent i e _)

theorem run_rxClassified {i : Instr} {f : RxFrame} {n A : Seq} {pf : Bool} (hi : i = .iFrame f n pf A)
    (hopen : (s.ep f.addr).state = .opened) :
    LocalRun i f.addr s (rxClassified f.addr n f.payload f.corrupt s) := by
  cases hc : f.corrupt with
  | true =>
    rw [rxClassified_of_corrupt]
    exact run_answered s i _ _ (run_sendREJ i _)
  | false =>
    cases hclass : classify n (s.ep f.addr).expectedRx with
    | inOrder =>
      rw [rxClassified_of_inOrder hclass]
      exact run_rxInOrder s hi hopen
    | gap =>
      rw [rxClassified_of_gap hclass]
      exact run_answered s i _ _ (run_sendREJ i _)
    | duplicate =>
      rw [rxClassified_of_duplicate hclass]
      exact run_answered s i _ _ (run_sendRR i _)

theorem run_rxI {i : Instr} {f : RxFrame} {n A : Seq} {pf : Bool} (hi : i = .iFrame f n pf A) :
    LocalRun i f.addr s (rxI f.addr n A f.payload f.corrupt s) := by
  cases hready : openReady s f.addr with
  | false =>
    rw [rxI_of_not_ready hready]
    exact run_out i _ s _
  | true =>
    obtain ⟨hopen, -⟩ := (openReady_eq_true_iff s f.addr).mp hready
    have hrun := run_rxClassified s hi hopen
    have hstill := hrun.any.state_eq (by rw [hi]; rfl) f.addr
    rw [rxI_of_ready hready]
    exact hrun.trans (run_processAck i _ _ A (hstill.trans hopen))

theorem run_rxRR (i : Instr) (e : Byte) (A : Seq) : LocalRun i e s (rxRR e A s) := by
  cases hready : openReady s e with
  | false =>
    rw [rxRR_of_not_ready hready]
    exact run_out i _ s _
  | true =>
    rw [rxRR_of_ready hready]
    exact run_processAck i e s A ((openReady_eq_true_iff s e).mp hready).1

theorem run_rtxFrom (i : Instr) (e : Byte) (hopen : (s.ep e).state = .opened) : LocalRun i e s (rtxFrom e s) := by
  by_cases hnone : (s.ep e).rtxQueue = []
  · rw [rtxFrom_of_empty hnone]
    exact .refl i e s
  · exact .of_touch (.repeats hopen hnone) (rtxFrom_eq_touched hnone)

theorem run_rxREJ (i : Instr) (e : Byte) (A : Seq) : LocalRun i e s (rxREJ e A s) := by
  cases hready : openReady s e with
  | false =>
    rw [rxREJ_of_not_ready hready]
    exact run_out i _ s _
  | true =>
    obtain ⟨hopen, -⟩ := (openReady_eq_true_iff s e).mp hready
    have hack := run_processAck i e s A hopen
    have hstill : ((processAck e A s).ep e).state = .opened :=
      ((run_processAck .txPull e s A hopen).any.state_eq rfl e).trans hopen
    rw [rxREJ_of_ready hready]
    split
    · exact hack
    · exact hack.trans (run_rtxFrom _ i e hstill)

theorem run_rxUI {i : Instr} {f : RxFrame} (hi : i = .ui f) : LocalRun i 0 s (rxUI f.payload f.corrupt s) := by
  unfold rxUI
  split
  · exact run_out i 0 s _
  split
  · exact run_out i 0 s _
  case isFalse hopen =>
    split
    · exact run_out i 0 s _
    case isFalse hroom =>
      exact (LocalRun.of_touch (.acceptsUI f hi rfl (Decidable.not_not.mp hopen) (Nat.lt_of_not_le hroom))
        (modEp_eq_touched 0 s _)).trans (run_out i 0 _ _)

theorem run_peerResetEndpoint {i : Instr} {f : RxFrame} (hi : i = .ureset f) (hP : f.payload = []) :
    LocalRun i f.addr s (peerResetEndpoint f.addr s) := by
  refine .of_touch (.peerResets f hi rfl hP) ?_
  rw [peerResetEndpoint_eq, State.touched, List.append_nil]
  rfl

theorem run_rxURESET_acked {i : Instr} {f : RxFrame} (hi : i = .ureset f) (hP : f.payload = []) :
    LocalRun i f.addr s (peerResetEndpoint f.addr (sendUACK f.addr s)) :=
  (run_sendUACK i f.addr s).trans (run_peerResetEndpoint _ hi hP)

theorem run_rxUACK {i : Instr} {f : RxFrame} (hi : i = .uack f) (hP : f.payload = []) :
    LocalRun i f.addr s (rxUACK f.addr s) := by
  unfold rxUACK
  split
  · exact ((LocalRun.of_touch .opensUp (modEp_eq_touched _ s _)).trans (run_out i _ _ _)).trans
      (run_drainPending i _ _)
  · split
    case isTrue hclosing =>
      exact (LocalRun.of_touch (.closes f hi rfl hP hclosing) (modEp_eq_touched _ s _)).trans (run_out i _ _ _)
    case isFalse => exact run_out i _ s _

/-- The payload of a frame that passes the checks of dispatch, unless it may carry one. -/
theorem payload_eq_nil_of_pass {k : FrameKind} {a : Byte} {P : Bytes} (h : frameViolation k a P = none)
    (hk : carriesPayload k = false) : P = [] := by
  obtain ⟨-, hP, -, -⟩ := (frameViolation_eq_none_iff k a P).mp h
  exact hP.resolve_left (ne_true_of_eq_false hk)

/-- A frame that passes the checks of dispatch runs on its own endpoint, a U-Reset at address 0 aside. -/
theorem run_receiveRule {i : Instr} {k : FrameKind} {f : RxFrame} (hf : instrFrame i = some (k, f))
    (hpass : frameViolation k f.addr f.payload = none) (hreset : k = .ureset → f.addr ≠ 0) :
    LocalRun i f.addr s (receiveRule i s) := by
  cases i with
  | iFrame g n pf A =>
    obtain ⟨rfl, rfl⟩ := Prod.mk.inj (Option.some.inj hf)
    exact run_rxI s rfl
  | rr g pf A =>
    obtain ⟨rfl, rfl⟩ := Prod.mk.inj (Option.some.inj hf)
    exact run_rxRR s _ _ _
  | rej g pf A =>
    obtain ⟨rfl, rfl⟩ := Prod.mk.inj (Option.some.inj hf)
    exact run_rxREJ s _ _ _
  | ui g =>
    obtain ⟨rfl, rfl⟩ := Prod.mk.inj (Option.some.inj hf)
    obtain ⟨-, -, -, hzero⟩ := (frameViolation_eq_none_iff _ _ _).mp hpass
    rw [hzero rfl]
    exact run_rxUI s rfl
  | upf g =>
    obtain ⟨rfl, rfl⟩ := Prod.mk.inj (Option.some.inj hf)
    exact run_out _ _ s _
  | uack g =>
    obtain ⟨rfl, rfl⟩ := Prod.mk.inj (Option.some.inj hf)
    exact run_rxUACK s rfl (payload_eq_nil_of_pass hpass rfl)
  | ureset g =>
    obtain ⟨rfl, rfl⟩ := Prod.mk.inj (Option.some.inj hf)
    rw [receiveRule, rxURESET, if_neg (hreset rfl)]
    exact run_rxURESET_acked s rfl (payload_eq_nil_of_pass hpass rfl)
  | openEp | closeEp | write | uiSend | rxPop | status | fail | linkReset | secState | rxByte | txPull | tick =>
    exact absurd hf nofun

/-! ## The host commands as runs of steps (44_arq.md R255, 45_endpoint_cmds.md) -/

theorem run_execWrite (i : Instr) (e : Byte) (P : Bytes) {t : State} (h : execWrite e P s = .next t) :
    LocalRun i e s t := by
  obtain rfl := Host.Outcome.next.inj h
  split
  · exact run_out i e s _
  case isFalse hlarge =>
    have hP : P.length ≤ s.cfg.mtu := Nat.le_of_not_lt hlarge
    split
    · exact run_out i e s _
    case isFalse hopen =>
      split
      · exact run_out i e s _
      · split
        case isTrue hsend =>
          obtain ⟨hcan, -⟩ := Bool.and_eq_true_iff.mp hsend
          exact (LocalRun.of_touch (.sends P _ (.inr ⟨hP, rfl⟩) hcan) (sendNew_eq_touched e P s)).trans
            (run_out i e _ _)
        · split
          · exact run_out i e s _
          case isFalse hroom =>
            exact (LocalRun.of_touch (.waits P (Decidable.not_not.mp hopen) hP (Nat.lt_of_not_le hroom))
              (modEp_eq_touched e s _)).trans (run_out i e _ _)

theorem run_execUiSend (i : Instr) (e : Byte) (P : Bytes) {t : State} (h : execUiSend e P s = .next t) :
    LocalRun i e s t := by
  obtain rfl := Host.Outcome.next.inj h
  split
  · exact run_out i e s _
  case isFalse hzero =>
    obtain rfl : e = 0 := Decidable.not_not.mp hzero
    split
    · exact run_out i 0 s _
    case isFalse hlarge =>
      split
      · exact run_out i 0 s _
      · exact (run_emit i 0 s (by decide) (by decide) (Nat.le_of_not_lt hlarge)).trans (run_out i 0 _ _)

theorem run_execRxPop {i : Instr} {e : Byte} (hi : i = .rxPop e) {t : State} (h : execRxPop e s = .next t) :
    LocalRun i e s t := by
  obtain rfl := Host.Outcome.next.inj h
  split
  · exact run_out i e s _
  case h_2 P rest hq => exact (LocalRun.of_touch (.pops P rest hi hq) (modEp_eq_touched e s _)).trans (run_out i e _ _)

theorem run_execFail {i : Instr} {e : Byte} {cause : FailCause} (hi : i = .fail e cause) {t : State}
    (h : execFail e cause s = .next t) : LocalRun i e s t := by
  obtain rfl := Host.Outcome.next.inj h
  split
  · exact run_out i e s _
  case isFalse hep =>
    split
    · exact run_out i e s _
    case isFalse hsticky =>
      exact ((LocalRun.of_touch (.fails cause hi hep hsticky) (modEp_eq_touched e s _)).trans (run_out i e _ _)).trans
        (run_out i e _ _)

/-- An accepted OPEN, after the link reset that it may begin with. -/
theorem run_opened {i : Instr} {e : Byte} {w : BitVec 3} {enc : Bool} (hi : i = .openEp e w enc)
    (hopen : openRefusal e w (s.ep e).state = none) :
    LocalRun i e s (((sendURESET e (s.modEp e (Endpoint.openedWith s.cfg.rtoInit e w enc))).out
      (.epState e .opened)).out (.cmdOk .opOpen e)) :=
  (((LocalRun.of_touch (.opens w enc hi hopen) (modEp_eq_touched e s _)).trans (run_sendURESET i e _)).trans
    (run_out i e _ _)).trans (run_out i e _ _)

/-- CLOSE of an Open endpoint, after the link reset that it may begin with. -/
theorem run_closing {i : Instr} {e : Byte} (hi : i = .closeEp e) (hopen : (s.ep e).state = .opened) :
    LocalRun i e s (((sendURESET e (s.modEp e (Endpoint.dropped s.cfg.rtoInit .closing))).out
      (.epState e .closing)).out (.cmdOk .opClose e)) :=
  (((LocalRun.of_touch (.startsClosing hi hopen) (modEp_eq_touched e s _)).trans (run_sendURESET i e _)).trans
    (run_out i e _ _)).trans (run_out i e _ _)

theorem run_closeFailed {i : Instr} {e : Byte} (hi : i = .closeEp e)
    (hst : (s.ep e).state = .connectionLost ∨ ∃ k, (s.ep e).state = .error k ∧ k ≠ .securityIncident) :
    LocalRun i e s (closeFailed e s) :=
  ((LocalRun.of_touch (.leavesFailed hi hst) (modEp_eq_touched e s _)).trans (run_out i e _ _)).trans
    (run_out i e _ _)

/-- A list of drains (45_endpoint_cmds.md R314). -/
theorem run_foldl_drainPending (i : Instr) (l : List Byte) :
    AnyRun i s (l.foldl (fun u e => drainPending e u) s) := by
  induction l generalizing s with
  | nil => exact Steps.refl
  | cons e l ih => exact (run_drainPending i e s).any.trans (ih _)

/-! ## TICK as a run of steps (44_arq.md R280) -/

theorem run_fireTimer {t : TimerRef} (harmed : (timerOf s t).armed = true) :
    LocalRun .tick t.ep s (fireTimer t s) := by
  obtain ⟨e, k⟩ := t
  cases k with
  | rtx =>
    rw [fireTimer_rtx_eq_touched]
    split
    · exact .of_touch (.givesUp rfl harmed) rfl
    case isFalse hleft => exact .of_touch (.expires rfl harmed (Nat.le_of_not_lt hleft)) rfl
  | ack =>
    rw [fireTimer_ack_eq_touched]
    split
    · refine (run_sendRR .tick e s).trans (.of_touch .acks ?_)
      rw [sendRR, emitFrame_eq_touched e, touched_ep_self, touched_touched]
      rfl
    · exact .of_touch (.lapses rfl) rfl

theorem run_fireDue (n : Nat) : AnyRun .tick s (fireDue n s) := by
  induction n generalizing s with
  | zero => exact Steps.refl
  | succ n ih =>
    cases hnext : nextDue s with
    | none =>
      rw [fireDue_of_none _ s hnext]
      exact Steps.refl
    | some t =>
      have ⟨hdue, _⟩ := firesNext_of_nextDue hnext
      obtain ⟨harmed, -⟩ := (isDue_eq_true_iff _ _).mp hdue
      rw [fireDue_of_some n s t hnext]
      exact (run_fireTimer s harmed).any.trans (ih _)

end

/-! ## Everything an instruction can do -/

/-- The instructions that begin with a link reset from endpoint 1 on (45_endpoint_cmds.md R304; 43_frame_dispatch.md
R224). -/
def resetsOthers : Instr → Prop
  | .openEp e _ _ => e = 0
  | .closeEp e => e = 0
  | .ureset f => f.addr = 0
  | .iFrame _ _ _ _ | .rr _ _ _ | .rej _ _ _ | .ui _ | .upf _ | .uack _ | .write _ _ | .uiSend _ _ | .rxPop _
  | .status _ | .fail _ _ | .linkReset | .secState _ | .rxByte _ | .txPull | .tick => False

/-- What an instruction can make of a state. -/
inductive Ran (i : Instr) (s : State) : State → Prop
  /-- steps on one endpoint, its target if it has one -/
  | locally {e : Byte} {t : State} : (∀ a, instrTarget i = some a → a = e) → LocalRun i e s t → Ran i s t
  /-- a frame that fails a check of dispatch -/
  | violates {k : FrameKind} {f : RxFrame} {r : ViolReason} : instrFrame i = some (k, f) →
      frameViolation k f.addr f.payload = some r → Ran i s (raiseViolation r s)
  /-- a link reset of the other endpoints, then steps on endpoint 0 -/
  | resets {c : ResetCause} {t : State} : resetsOthers i → instrTarget i = none →
      LocalRun i 0 (linkResetEndpoints 1 c s) t → Ran i s t
  /-- LINK_RESET -/
  | linkReset : i = .linkReset → Ran i s ((linkResetEndpoints 0 .host s).out (.cmdOk .opLinkReset 0))
  /-- SEC_STATE -/
  | session {v : SessionState} {t : State} : i = .secState v → AnyRun i (s.setSession v) t → Ran i s t
  /-- TICK -/
  | ticks {t : State} : i = .tick → AnyRun .tick (s.setNow (s.now + 1)) t → Ran i s t
  /-- TX_PULL -/
  | pulls {t : State} : i = .txPull → execTxPull s = .next t → Ran i s t
  /-- RX_BYTE -/
  | byte {b : Byte} {t : State} : i = .rxByte b → execRxByte b s = .next t → Ran i s t

/-- A frame instruction: refused, a U-Reset of the whole link, or steps on the frame's endpoint. -/
theorem ran_frame {i : Instr} {k : FrameKind} {f : RxFrame} (hf : instrFrame i = some (k, f)) {s t : State}
    (h : exec i s = .next t) : Ran i s t := by
  cases hviol : frameViolation k f.addr f.payload with
  | some r =>
    rw [exec_frame_of_violation hf hviol] at h
    obtain rfl := Host.Outcome.next.inj h
    exact .violates hf hviol
  | none =>
    rw [exec_frame_of_pass hf hviol] at h
    obtain rfl := Host.Outcome.next.inj h
    by_cases hreset : k = .ureset ∧ f.addr = 0
    · obtain ⟨rfl, hzero⟩ := hreset
      have hi : i = .ureset f := by
        cases i with
        | ureset g => rw [(Prod.mk.inj (Option.some.inj hf)).2]
        | iFrame | rr | rej | ui | upf | uack | openEp | closeEp | write | uiSend | rxPop | status | fail | linkReset
        | secState | rxByte | txPull | tick => exact absurd hf nofun
      have hrun := run_rxURESET_acked (linkResetEndpoints 1 .peerReset s) hi (payload_eq_nil_of_pass hviol rfl)
      rw [hzero] at hrun
      have hrule : receiveRule i s = peerResetEndpoint 0 (sendUACK 0 (linkResetEndpoints 1 .peerReset s)) := by
        rw [hi, receiveRule, rxURESET, hzero, if_pos rfl]
      rw [hrule]
      subst hi
      exact .resets hzero (if_pos hzero) hrun
    · have hrun := run_receiveRule s hf hviol fun hk hzero => hreset ⟨hk, hzero⟩
      refine .locally (fun a ha => ?_) hrun
      cases i with
      | iFrame | rr | rej | ui | upf | uack =>
        obtain ⟨rfl, rfl⟩ := Prod.mk.inj (Option.some.inj hf)
        exact (Option.some.inj ha).symm
      | ureset g =>
        obtain ⟨rfl, rfl⟩ := Prod.mk.inj (Option.some.inj hf)
        rw [instrTarget, if_neg fun hzero => hreset ⟨rfl, hzero⟩] at ha
        exact (Option.some.inj ha).symm
      | openEp | closeEp | write | uiSend | rxPop | status | fail | linkReset | secState | rxByte | txPull | tick =>
        exact absurd hf nofun

/-- A command on one endpoint runs on the endpoint it names. -/
theorem ran_on {i : Instr} {e : Byte} (hi : instrTarget i = some e) {s t : State} (h : LocalRun i e s t) : Ran i s t :=
  .locally (fun _ ha => Option.some.inj (ha.symm.trans hi)) h

theorem linkResetEndpoints_cfg (first : Nat) (c : ResetCause) (s : State) :
    (linkResetEndpoints first c s).cfg = s.cfg := by
  rw [linkResetEndpoints_eq]

/-- The link reset of the other endpoints leaves endpoint 0. -/
theorem linkResetEndpoints_ep_zero (c : ResetCause) (s : State) : (linkResetEndpoints 1 c s).ep 0 = s.ep 0 := by
  rw [linkResetEndpoints_ep, if_neg (by decide)]

theorem ran_openEp {e : Byte} {w : BitVec 3} {enc : Bool} {s t : State}
    (h : exec (.openEp e w enc) s = .next t) : Ran (.openEp e w enc) s t := by
  have htarget : ∀ a, instrTarget (.openEp e w enc) = some a → a = e := by
    intro a ha
    rw [instrTarget] at ha
    split at ha
    · exact absurd ha nofun
    · exact (Option.some.inj ha).symm
  cases hrefusal : openRefusal e w (s.ep e).state with
  | some r =>
    rw [exec_openEp_of_refused hrefusal] at h
    obtain rfl := Host.Outcome.next.inj h
    exact .locally htarget (run_out _ e s _)
  | none =>
    rw [exec_openEp_of_accepted hrefusal, systemReset] at h
    obtain rfl := Host.Outcome.next.inj h
    by_cases hzero : e = 0
    · subst hzero
      rw [if_pos rfl, ← linkResetEndpoints_cfg 1 .systemEndpoint s]
      rw [← linkResetEndpoints_ep_zero .systemEndpoint s] at hrefusal
      exact .resets rfl rfl (run_opened _ rfl hrefusal)
    · rw [if_neg hzero]
      exact .locally htarget (run_opened s rfl hrefusal)

theorem ran_closeEp {e : Byte} {s t : State} (h : exec (.closeEp e) s = .next t) : Ran (.closeEp e) s t := by
  have htarget : ∀ a, instrTarget (.closeEp e) = some a → a = e := by
    intro a ha
    rw [instrTarget] at ha
    split at ha
    · exact absurd ha nofun
    · exact (Option.some.inj ha).symm
  by_cases hsettled : (s.ep e).state = .closed ∨ (s.ep e).state = .closing ∨
      (s.ep e).state = .error .securityIncident
  · rw [exec_closeEp_of_settled hsettled] at h
    obtain rfl := Host.Outcome.next.inj h
    exact .locally htarget (run_out _ e s _)
  obtain ⟨hclosed, hclosing, hsticky⟩ : (s.ep e).state ≠ .closed ∧ (s.ep e).state ≠ .closing ∧
      (s.ep e).state ≠ .error .securityIncident := by
    simpa only [not_or, ne_eq] using hsettled
  by_cases hopen : (s.ep e).state = .opened
  · rw [exec_closeEp_of_opened hopen, closeOpened, systemReset] at h
    obtain rfl := Host.Outcome.next.inj h
    by_cases hzero : e = 0
    · subst hzero
      rw [if_pos rfl, ← linkResetEndpoints_cfg 1 .systemEndpoint s]
      rw [← linkResetEndpoints_ep_zero .systemEndpoint s] at hopen
      exact .resets rfl rfl (run_closing _ rfl hopen)
    · rw [if_neg hzero]
      exact .locally htarget (run_closing s rfl hopen)
  · rw [exec_closeEp_of_failed hsettled hopen] at h
    obtain rfl := Host.Outcome.next.inj h
    refine .locally htarget (run_closeFailed s rfl ?_)
    cases hst : (s.ep e).state with
    | closed => exact absurd hst hclosed
    | closing => exact absurd hst hclosing
    | opened => exact absurd hst hopen
    | connectionLost => exact .inl rfl
    | error x => exact .inr ⟨x, rfl, fun hx => hsticky (by rw [hst, hx])⟩

theorem ran_secState {v : SessionState} {s t : State} (h : exec (.secState v) s = .next t) : Ran (.secState v) s t := by
  by_cases hv : v = .initialized
  · subst hv
    rw [exec_secState_initialized] at h
    obtain rfl := Host.Outcome.next.inj h
    exact .session rfl ((run_foldl_drainPending _ _ _).trans (run_out _ 0 _ _).any)
  · rw [exec_secState_of_ne hv] at h
    obtain rfl := Host.Outcome.next.inj h
    exact .session rfl (run_out _ 0 _ _).any

/-- The inversion of `exec`: what any instruction does is one of these. -/
theorem ran_exec {i : Instr} {s t : State} (h : exec i s = .next t) : Ran i s t := by
  cases i with
  | iFrame | rr | rej | ui | upf | uack | ureset => exact ran_frame rfl h
  | openEp => exact ran_openEp h
  | closeEp => exact ran_closeEp h
  | write e P => exact ran_on rfl (run_execWrite s _ e P h)
  | uiSend e P => exact ran_on rfl (run_execUiSend s _ e P h)
  | rxPop e => exact ran_on rfl (run_execRxPop s rfl h)
  | status e =>
    rw [exec_status_eq] at h
    obtain rfl := Host.Outcome.next.inj h
    exact ran_on rfl (run_out _ e s _)
  | fail e cause => exact ran_on rfl (run_execFail s rfl h)
  | linkReset =>
    obtain rfl := Host.Outcome.next.inj h
    exact .linkReset rfl
  | secState => exact ran_secState h
  | rxByte => exact .byte rfl h
  | txPull => exact .pulls rfl h
  | tick =>
    obtain rfl := Host.Outcome.next.inj h
    exact .ticks rfl (run_fireDue _ _)

end Sys2Proof
end

section
/-! SUPPORT. What one RX_BYTE can do: move the deframer, raise a violation, or run the frame instruction that its byte
completes (42_deframer_rx.md R181 to R187). -/

namespace Sys2Proof

open Machine

/-- What RX_BYTE can make of a state. What needs a legal deframer state is said under that condition. -/
inductive ByteRan (b : Byte) (s : State) : State → Prop
  /-- the byte is collected or discarded -/
  | moves (phase : RxPhase) (buf : Bytes) (need : Nat) (o : List Event) :
      (RxInv s → RxInv (s.rxMoved phase buf need o)) → ByteRan b s (s.rxMoved phase buf need o)
  /-- the frame is too long or its control byte has no kind -/
  | violates (r : ViolReason) (o : List Event) : ByteRan b s (raiseViolation r (s.rxMoved .hunt [] 0 o))
  /-- the byte completes a frame, whose instruction runs -/
  | runs {j : Instr} {k : FrameKind} {f : RxFrame} {o : List Event} {t : State} : instrFrame j = some (k, f) →
      exec j (s.rxMoved .hunt [] 0 o) = .next t →
      (RxInv s → f.payload.length ≤ s.cfg.mtu ∧ runsAs (.rxByte b) s j) → ByteRan b s t

theorem decodeFrame_of_known {c : Byte} (hc : kind c ≠ .unknown) (a : Byte) (P : Bytes) (corrupt : Bool) :
    ∃ j, decodeFrame a c P corrupt = .ok j := by
  unfold decodeFrame
  split
  case h_8 hk => exact absurd hk hc
  all_goals exact ⟨_, rfl⟩

theorem decodeFrameBytes_of_parts {bs P : Bytes} {h : Header} {corrupt : Bool} (hhead : headerAt bs = some h)
    (hflag : h.flag = flagByte) (hhcs : hcsOk h = true) (hbody : decodeBody h.length (bs.drop 7) = .ok (P, corrupt)) :
    decodeFrameBytes bs = decodeFrame h.addr h.control P corrupt := by
  simp only [decodeFrameBytes, hhead, hflag, ne_eq, not_true, if_false, hhcs, Bool.true_eq_false, hbody]

/-- A byte that completes a frame of this header and payload. -/
theorem byteRan_of_dispatch {b : Byte} {s : State} {h : Header} {P : Bytes} {corrupt : Bool}
    (hinv : RxInv s → P.length ≤ s.cfg.mtu ∧
      (s.rxPhase = .header ∧ s.rxBuf.length = 6 ∨ s.rxPhase = .body ∧ s.rxNeed = 1) ∧
      decodeFrameBytes (s.rxBuf ++ [b]) = decodeFrame h.addr h.control P corrupt) :
    ByteRan b s (dispatch h.addr h.control P corrupt (afterFrame h.addr corrupt s)) := by
  by_cases hc : kind h.control = .unknown
  · rw [dispatch_of_kind_unknown hc]
    exact .violates _ _
  · obtain ⟨j, hj⟩ := decodeFrame_of_known hc h.addr P corrupt
    obtain ⟨-, hf, -⟩ := decodeFrame_eq_ok hj
    refine .runs hf (exec_of_decodeFrame hj _) fun hrx => ?_
    obtain ⟨hP, hdone, hdec⟩ := hinv hrx
    exact ⟨hP, .inr ⟨b, rfl, hdone, hdec.trans hj⟩⟩

/-! ## The deframer's states under a byte -/

theorem rxMoved_nil (s : State) (phase : RxPhase) (buf : Bytes) (need : Nat) :
    s.rxMoved phase buf need [] = s.setRx phase buf need := by
  rw [State.rxMoved, List.append_nil]
  rfl

theorem rxInv_hunt {s : State} (o : List Event) : RxInv (s.rxMoved .hunt [] 0 o) := ⟨rfl, rfl⟩

theorem rxInv_of_hunt {s : State} (hs : s.rxPhase = .hunt) (h : RxInv s) : s.rxBuf = [] ∧ s.rxNeed = 0 := by
  rw [RxInv, hs] at h
  exact h

theorem rxInv_of_header {s : State} (hs : s.rxPhase = .header) (h : RxInv s) :
    s.rxBuf.head? = some flagByte ∧ s.rxBuf.length ≤ 6 ∧ s.rxNeed = 0 := by
  rw [RxInv, hs] at h
  exact h

theorem rxInv_of_body {s : State} (hs : s.rxPhase = .body) (h : RxInv s) :
    ∃ hd, headerAt s.rxBuf = some hd ∧ hd.flag = flagByte ∧ hcsOk hd = true ∧ 0 < hd.length ∧ hd.length ≤ s.cfg.mtu
      ∧ 0 < s.rxNeed ∧ s.rxBuf.length + s.rxNeed = 7 + hd.length + 2 := by
  rw [RxInv, hs] at h
  exact h

/-- The seventh byte of a header. -/
theorem length_completed {buf : Bytes} (hlen : buf.length = 6) (b : Byte) : (buf ++ [b]).length = 7 :=
  List.length_append.trans (congrArg (· + 1) hlen)

theorem eq_pair_of_length {l : Bytes} (h : l.length = 2) : ∃ f0 f1, l = [f0, f1] :=
  match l, h with
  | [f0, f1], _ => ⟨f0, f1, rfl⟩

/-- A buffer of seven bytes or more holds a header. -/
theorem headerAt_of_length {bs : Bytes} (h : 7 ≤ bs.length) : ∃ hd, headerAt bs = some hd := by
  match bs, h with
  | _ :: _ :: _ :: _ :: _ :: _ :: _ :: _, _ => exact ⟨_, rfl⟩

/-- The header is at the front of the buffer, whatever follows. -/
theorem headerAt_append {bs : Bytes} {hd : Header} (h : headerAt bs = some hd) (rest : Bytes) :
    headerAt (bs ++ rest) = some hd := by
  rw [eq_of_headerAt h, List.append_assoc]
  rfl

theorem header_flag_of_head {bs : Bytes} {hd : Header} (h : headerAt bs = some hd) (hhead : bs.head? = some flagByte) :
    hd.flag = flagByte := by
  rw [eq_of_headerAt h] at hhead
  exact Option.some.inj hhead

theorem byteRan_hunt {b : Byte} {s : State} (hs : s.rxPhase = .hunt) : ByteRan b s (rxHunt b s) := by
  unfold rxHunt
  split
  case isTrue hb =>
    rw [← rxMoved_nil]
    refine .moves _ _ _ _ fun hrx => ?_
    obtain ⟨-, hneed⟩ := rxInv_of_hunt hs hrx
    exact ⟨congrArg some hb, Nat.succ_le_succ (Nat.zero_le 5), hneed⟩
  case isFalse =>
    have hout : s.out (.garbage 1) = s.rxMoved .hunt s.rxBuf s.rxNeed [.garbage 1] := by
      rw [← hs]
      rfl
    rw [hout]
    exact .moves _ _ _ _ fun hrx => (rxInv_of_hunt hs hrx : s.rxBuf = [] ∧ s.rxNeed = 0)

theorem byteRan_header {b : Byte} {s t : State} (hs : s.rxPhase = .header) (h : rxHeader b s = .next t) :
    ByteRan b s t := by
  by_cases hlen : s.rxBuf.length = 6
  · obtain ⟨hd, hhead⟩ := headerAt_of_length (Nat.le_of_eq (length_completed hlen b).symm)
    rw [rxHeader_of_length_eq b hlen, rxCheckHeader_of_headerAt (h := hd) hhead] at h
    obtain rfl := Host.Outcome.next.inj h
    split
    case isTrue => exact .moves .hunt [] 0 [.garbage 7] fun _ => rxInv_hunt _
    case isFalse hhcs =>
      split
      case isTrue => exact .violates .oversize [.garbage 7]
      case isFalse hmtu =>
        have hflag : RxInv s → hd.flag = flagByte := fun hrx => by
          obtain ⟨hfront, -, -⟩ := rxInv_of_header hs hrx
          exact header_flag_of_head hhead (by rw [List.head?_append, hfront]; rfl)
        split
        case isTrue hL =>
          rw [rxRestart_eq_afterFrame hd.addr]
          refine byteRan_of_dispatch fun hrx => ⟨Nat.zero_le _, .inl ⟨hs, hlen⟩, ?_⟩
          refine decodeFrameBytes_of_parts hhead (hflag hrx) (Bool.of_not_eq_false hhcs) ?_
          rw [hL, List.drop_eq_nil_of_le (Nat.le_of_eq (length_completed hlen b))]
          rfl
        case isFalse hL =>
          change ByteRan b s (s.setRx .body (s.rxBuf ++ [b]) (hd.length + 2))
          rw [← rxMoved_nil]
          refine .moves _ _ _ _ fun hrx => ⟨hd, hhead, hflag hrx, Bool.of_not_eq_false hhcs, Nat.pos_of_ne_zero hL,
            Nat.le_of_not_lt hmtu, Nat.succ_pos _, ?_⟩
          change (s.rxBuf ++ [b]).length + (hd.length + 2) = _
          rw [List.length_append, List.length_singleton, hlen]
          omega
  · rw [rxHeader_of_length_ne b hlen, ← rxMoved_nil] at h
    obtain rfl := Host.Outcome.next.inj h
    refine .moves _ _ _ _ fun hrx => ?_
    obtain ⟨hfront, hshort, hneed⟩ := rxInv_of_header hs hrx
    refine ⟨?_, ?_, hneed⟩
    · change (s.rxBuf ++ [b]).head? = _
      rw [List.head?_append, hfront]
      rfl
    · change (s.rxBuf ++ [b]).length ≤ 6
      rw [List.length_append, List.length_singleton]
      omega

theorem byteRan_body {b : Byte} {s t : State} (hs : s.rxPhase = .body) (h : rxBody b s = .next t) :
    ByteRan b s t := by
  match hneed : s.rxNeed with
  | 0 => simp only [rxBody, hneed, reduceCtorEq] at h
  | 1 =>
    rw [rxBody_of_last b hneed, rxCheckPayload, State.setRx_rxBuf] at h
    split at h
    case h_1 => exact absurd h nofun
    case h_2 hd hhead =>
      split at h
      case h_2 => exact absurd h nofun
      case h_1 f0 f1 rest hrest =>
        obtain rfl := Host.Outcome.next.inj h
        rw [rxFrameDone_setRx]
        refine byteRan_of_dispatch fun hrx => ?_
        obtain ⟨hd', hhead', hflag, hhcs, hpos, hmtu, -, hlen⟩ := rxInv_of_body hs hrx
        obtain rfl : hd' = hd := Option.some.inj ((headerAt_append hhead' [b]).symm.trans hhead)
        have hbody : ((s.rxBuf ++ [b]).drop 7).length = hd'.length + 2 := by
          rw [List.length_drop, List.length_append, List.length_singleton]
          omega
        have hnone : rest = [] := by
          have hend := congrArg List.length hrest
          rw [List.length_drop, hbody, List.length_cons, List.length_cons] at hend
          exact List.eq_nil_of_length_eq_zero (by omega)
        refine ⟨Nat.le_trans (List.length_take_le _ _) hmtu, .inr ⟨hs, hneed⟩,
          decodeFrameBytes_of_parts hhead hflag hhcs ?_⟩
        rw [hnone] at hrest
        simp only [decodeBody, if_neg (Nat.ne_of_gt hpos), hrest]
  | n + 2 =>
    rw [rxBody_of_need b hneed, ← rxMoved_nil] at h
    obtain rfl := Host.Outcome.next.inj h
    refine .moves _ _ _ _ fun hrx => ?_
    obtain ⟨hd, hhead, hflag, hhcs, hpos, hmtu, -, hlen⟩ := rxInv_of_body hs hrx
    refine ⟨hd, headerAt_append hhead [b], hflag, hhcs, hpos, hmtu, Nat.succ_pos n, ?_⟩
    change (s.rxBuf ++ [b]).length + (n + 1) = _
    rw [List.length_append, List.length_singleton]
    omega

/-- The inversion of RX_BYTE. -/
theorem byteRan_execRxByte {b : Byte} {s t : State} (h : execRxByte b s = .next t) : ByteRan b s t := by
  cases hs : s.rxPhase with
  | hunt =>
    rw [show execRxByte b s = _ from exec_rxByte_of_hunt hs b] at h
    obtain rfl := Host.Outcome.next.inj h
    exact byteRan_hunt hs
  | header => exact byteRan_header hs ((exec_rxByte_of_header hs b).symm.trans h)
  | body => exact byteRan_body hs ((exec_rxByte_of_body hs b).symm.trans h)

/-- From a legal deframer state RX_BYTE never stops. -/
theorem execRxByte_goes_on {s : State} (hrx : RxInv s) (b : Byte) : ∃ t, execRxByte b s = .next t := by
  change ∃ t, exec (.rxByte b) s = .next t
  cases hs : s.rxPhase with
  | hunt => exact ⟨_, exec_rxByte_of_hunt hs b⟩
  | header =>
    rw [exec_rxByte_of_header hs]
    by_cases hlen : s.rxBuf.length = 6
    · obtain ⟨hd, hhead⟩ := headerAt_of_length (Nat.le_of_eq (length_completed hlen b).symm)
      rw [rxHeader_of_length_eq b hlen]
      exact ⟨_, rxCheckHeader_of_headerAt (h := hd) hhead⟩
    · exact ⟨_, rxHeader_of_length_ne b hlen⟩
  | body =>
    obtain ⟨hd, hhead, -, -, -, -, hneed, hlen⟩ := rxInv_of_body hs hrx
    match hn : s.rxNeed with
    | 0 => omega
    | n + 2 => exact ⟨_, by rw [exec_rxByte_of_body hs, rxBody_of_need b hn]⟩
    | 1 =>
      have hbody : (((s.rxBuf ++ [b]).drop 7).drop hd.length).length = 2 := by
        rw [List.length_drop, List.length_drop, List.length_append, List.length_singleton]
        omega
      obtain ⟨f0, f1, hf⟩ := eq_pair_of_length hbody
      have hrest : (s.rxBuf ++ [b]).drop 7 = ((s.rxBuf ++ [b]).drop 7).take hd.length ++ [f0, f1] := by
        rw [← hf, List.take_append_drop]
      refine ⟨_, exec_rxByte_of_body_done hs hn (headerAt_append hhead [b]) hrest (List.length_take_of_le ?_)⟩
      rw [List.length_drop, List.length_append, List.length_singleton]
      omega

end Sys2Proof
end

section
/-! SUPPORT. What every instruction keeps: one induction over the steps of `exec`, and the statements that follow from it
(10_state.md R30 to R43; 60_exceptions.md R361; 20_memory.md R91). -/

namespace Sys2Proof

open Machine

/-! ## The induction -/

/-- While `i` runs from `s`, steps are taken in the name of `j`: of `i` itself, or of the frame instruction that the
byte of an RX_BYTE completes. -/
def stepsAs (i : Instr) (s : State) (j : Instr) : Prop :=
  j = i ∨ ∃ b k f, i = .rxByte b ∧ instrFrame j = some (k, f) ∧
    (RxInv s → f.payload.length ≤ s.cfg.mtu ∧ runsAs i s j)

/-- Every step that `i` can take from `s` keeps `p`. -/
structure Kept (i : Instr) (s : State) (p : State → Prop) : Prop where
  touch : ∀ j u e y q o n, stepsAs i s j → p u → Touch j u e y q o n → p (u.touched e y q o n)
  reset : ∀ first c u, p u → p (linkResetEndpoints first c u)
  viol : ∀ u, p u → p (u.setViol (violHistAfter u))
  session : ∀ v, i = .secState v → p s → p (s.setSession v)
  tick : i = .tick → p s → p (s.setNow (s.now + 1))
  pull : i = .txPull → p s → ∀ F rest b, s.txQueue = F :: rest → F[s.txPos]? = some b →
    p (if s.txPos + 1 = F.length then (s.out (.txByte b)).setTx rest 0
      else (s.out (.txByte b)).setTx s.txQueue (s.txPos + 1))
  move : ∀ b, i = .rxByte b → p s → ∀ phase buf need o, (RxInv s → RxInv (s.rxMoved phase buf need o)) →
    p (s.rxMoved phase buf need o)

section
variable {i : Instr} {s : State} {p : State → Prop}

theorem Kept.anyRun (hp : Kept i s p) {j : Instr} (hj : stepsAs i s j) {u t : State} (h : AnyRun j u t) (hu : p u) :
    p t :=
  h.keeps hu fun u e y q o n => hp.touch j u e y q o n hj

theorem Kept.out (hp : Kept i s p) {u : State} (hu : p u) (ev : Event) : p (u.out ev) :=
  hp.anyRun (.inl rfl) (run_out i 0 u ev).any hu

theorem Kept.raiseViolation (hp : Kept i s p) {u : State} (hu : p u) (r : ViolReason) : p (raiseViolation r u) := by
  have hstamped := hp.viol _ (hp.out hu (.violation r))
  rcases raiseViolation_cases r u with ⟨-, h⟩ | ⟨-, h⟩
  · rw [h]
    exact hstamped
  · rw [h]
    exact hp.reset _ _ _ hstamped

/-- A frame instruction keeps what its steps keep. -/
theorem Kept.frame (hp : Kept i s p) {j : Instr} (hj : stepsAs i s j) {k : FrameKind} {f : RxFrame}
    (hf : instrFrame j = some (k, f)) {u t : State} (h : exec j u = .next t) (hu : p u) : p t := by
  cases ran_frame hf h with
  | locally _ hrun => exact hp.anyRun hj hrun.any hu
  | violates => exact hp.raiseViolation hu _
  | resets _ _ hrun => exact hp.anyRun hj hrun.any (hp.reset _ _ _ hu)
  | linkReset hi | session hi | ticks hi | pulls hi | byte hi =>
    subst hi
    exact absurd hf nofun

/-- The induction over what an instruction can do. -/
theorem Kept.exec (hp : Kept i s p) {t : State} (h : exec i s = .next t) (hs : p s) : p t := by
  cases ran_exec h with
  | locally _ hrun => exact hp.anyRun (.inl rfl) hrun.any hs
  | violates => exact hp.raiseViolation hs _
  | resets _ _ hrun => exact hp.anyRun (.inl rfl) hrun.any (hp.reset _ _ _ hs)
  | linkReset => exact hp.out (hp.reset _ _ _ hs) _
  | session hi hrun => exact hp.anyRun (.inl rfl) hrun (hp.session _ hi hs)
  | ticks hi hrun => exact hp.anyRun (.inl hi.symm) hrun (hp.tick hi hs)
  | pulls hi hpull =>
    unfold execTxPull at hpull
    split at hpull
    case h_1 =>
      obtain rfl := Host.Outcome.next.inj hpull
      exact hp.out hs _
    case h_2 F rest hq =>
      split at hpull
      case h_1 => exact absurd hpull nofun
      case h_2 b hb =>
        obtain rfl := Host.Outcome.next.inj hpull
        exact hp.pull hi hs F rest b hq hb
  | byte hi hbyte =>
    have hmove := hp.move _ hi hs
    cases byteRan_execRxByte hbyte with
    | moves phase buf need o hinv => exact hmove phase buf need o hinv
    | violates r o => exact hp.raiseViolation (hmove _ _ _ o fun _ => rxInv_hunt o) r
    | runs hf hrun hinv =>
      subst hi
      exact hp.frame (.inr ⟨_, _, _, rfl, hf, hinv⟩) hf hrun (hmove _ _ _ _ fun _ => rxInv_hunt _)

end

/-! ## Other endpoints (60_exceptions.md R361) -/

theorem LocalRun.ep_of_ne {i : Instr} {e a : Byte} {s t : State} (h : LocalRun i e s t) (ha : a ≠ e) :
    t.ep a = s.ep a := by
  refine h.keeps (p := fun u => u.ep a = s.ep a) rfl ?_
  intro u y q o n hu _
  rw [touched_ep_of_ne _ _ _ _ _ _ ha, hu]

/-- Settles O54: an instruction with a target that passes the checks of dispatch takes steps on its target alone. -/
theorem onlyItsEndpointChanges : Obligations.OnlyItsEndpointChanges := by
  unfold Obligations.OnlyItsEndpointChanges
  intro i e a s t htarget hpass h hae
  cases ran_exec h with
  | locally he hrun =>
    obtain rfl := he e htarget
    exact hrun.ep_of_ne hae
  | violates hf hviol => exact absurd (hviol.symm.trans (hpass _ _ hf)) nofun
  | resets _ hnone => exact absurd (htarget.symm.trans hnone) nofun
  | linkReset hi | session hi | ticks hi | pulls hi | byte hi =>
    subst hi
    exact absurd htarget nofun

/-! ## Who writes what (10_state.md R30 to R43) -/

theorem linkResetEndpoints_output_prefix (first : Nat) (c : ResetCause) (s : State) :
    s.output <+: (linkResetEndpoints first c s).output := by
  rw [linkResetEndpoints_output, List.append_assoc]
  exact List.prefix_append _ _

theorem linkResetEndpoints_fields (first : Nat) (c : ResetCause) (s : State) :
    (linkResetEndpoints first c s).input = s.input ∧ (linkResetEndpoints first c s).now = s.now ∧
      (linkResetEndpoints first c s).session = s.session ∧ (linkResetEndpoints first c s).rxPhase = s.rxPhase ∧
      (linkResetEndpoints first c s).rxBuf = s.rxBuf ∧ (linkResetEndpoints first c s).rxNeed = s.rxNeed ∧
      (linkResetEndpoints first c s).txPos = s.txPos ∧ (linkResetEndpoints first c s).armCounter = s.armCounter := by
  rw [linkResetEndpoints_eq]
  exact ⟨rfl, rfl, rfl, rfl, rfl, rfl, rfl, rfl⟩

/-- The configuration and the input stay, and output is only added. -/
theorem kept_cfg_input_output (i : Instr) (s : State) :
    Kept i s fun u => u.cfg = s.cfg ∧ u.input = s.input ∧ s.output <+: u.output where
  touch := fun _ u _ _ _ o _ _ ⟨hcfg, hinput, hout⟩ _ => ⟨hcfg, hinput, hout.trans (List.prefix_append _ o)⟩
  reset := fun first c u ⟨hcfg, hinput, hout⟩ => by
    obtain ⟨hsame, -⟩ := linkResetEndpoints_fields first c u
    rw [linkResetEndpoints_cfg, hsame]
    exact ⟨hcfg, hinput, hout.trans (linkResetEndpoints_output_prefix first c u)⟩
  viol := fun _ hu => hu
  session := fun _ _ hs => hs
  tick := fun _ hs => hs
  pull := fun _ _ F rest b _ _ => by split <;> exact ⟨rfl, rfl, List.prefix_append _ _⟩
  move := fun _ _ _ _ _ _ o _ => ⟨rfl, rfl, List.prefix_append _ o⟩

theorem kept_now {i : Instr} (hi : i ≠ .tick) (s : State) : Kept i s fun u => u.now = s.now where
  touch := fun _ _ _ _ _ _ _ _ hu _ => hu
  reset := fun first c u hu => by
    obtain ⟨-, hsame, -⟩ := linkResetEndpoints_fields first c u
    exact hsame.trans hu
  viol := fun _ hu => hu
  session := fun _ _ hs => hs
  tick := fun h => absurd h hi
  pull := fun _ _ _ _ _ _ _ => by split <;> rfl
  move := fun _ _ _ _ _ _ _ _ => rfl

theorem kept_session {i : Instr} (hi : ∀ v, i ≠ .secState v) (s : State) :
    Kept i s fun u => u.session = s.session where
  touch := fun _ _ _ _ _ _ _ _ hu _ => hu
  reset := fun first c u hu => by
    obtain ⟨-, -, hsame, -⟩ := linkResetEndpoints_fields first c u
    exact hsame.trans hu
  viol := fun _ hu => hu
  session := fun v h => absurd h (hi v)
  tick := fun _ hs => hs
  pull := fun _ _ _ _ _ _ _ => by split <;> rfl
  move := fun _ _ _ _ _ _ _ _ => rfl

theorem kept_deframer {i : Instr} (hi : ∀ b, i ≠ .rxByte b) (s : State) :
    Kept i s fun u => u.rxPhase = s.rxPhase ∧ u.rxBuf = s.rxBuf ∧ u.rxNeed = s.rxNeed where
  touch := fun _ _ _ _ _ _ _ _ hu _ => hu
  reset := fun first c u hu => by
    obtain ⟨-, -, -, hphase, hbuf, hneed, -⟩ := linkResetEndpoints_fields first c u
    rw [hphase, hbuf, hneed]
    exact hu
  viol := fun _ hu => hu
  session := fun _ _ hs => hs
  tick := fun _ hs => hs
  pull := fun _ _ _ _ _ _ _ => by split <;> exact ⟨rfl, rfl, rfl⟩
  move := fun b h => absurd h (hi b)

/-- A step in the name of anything but an OPEN of the endpoint leaves its window and its enc bit. -/
theorem Touch.setup {i : Instr} {s : State} {e : Byte} {y : Endpoint} {q : List Bytes} {o : List Event} {n : Nat}
    (h : Touch i s e y q o n) (hi : ∀ w enc, i ≠ .openEp e w enc) :
    y.window = (s.ep e).window ∧ y.encrypted = (s.ep e).encrypted := by
  cases h with
  | opens w enc hopen => exact absurd hopen (hi w enc)
  | peerResets =>
    unfold Endpoint.peerReset
    split
    · exact ⟨rfl, rfl⟩
    split
    · exact ⟨rfl, rfl⟩
    · exact ⟨rfl, rfl⟩
  | tells | emits | sends | waits | releases | acks | repeats | accepts | acceptsUI | opensUp | closes | startsClosing
  | leavesFailed | fails | pops | expires | givesUp | lapses => exact ⟨rfl, rfl⟩

theorem linkReset_setup (rtoInit : Nat) (x : Endpoint) :
    (x.linkReset rtoInit).window = x.window ∧ (x.linkReset rtoInit).encrypted = x.encrypted := by
  unfold Endpoint.linkReset
  split
  · exact ⟨rfl, rfl⟩
  · exact ⟨rfl, rfl⟩

/-- Steps are never taken in the name of an OPEN that is not the instruction itself. -/
theorem stepsAs_openEp {i : Instr} {s : State} {e : Byte} {w : BitVec 3} {enc : Bool}
    (h : stepsAs i s (.openEp e w enc)) : i = .openEp e w enc := by
  rcases h with h | ⟨b, k, f, -, hf, -⟩
  · exact h.symm
  · exact absurd hf nofun

theorem kept_setup {i : Instr} {e : Byte} (hi : ∀ w enc, i ≠ .openEp e w enc) (s : State) :
    Kept i s fun u => (u.ep e).window = (s.ep e).window ∧ (u.ep e).encrypted = (s.ep e).encrypted where
  touch := fun j u a y q o n hj ⟨hwindow, henc⟩ htouch => by
    rw [touched_ep]
    split
    case isTrue hea =>
      subst hea
      obtain ⟨hw, he⟩ := htouch.setup fun w enc h => hi w enc (stepsAs_openEp (h ▸ hj))
      exact ⟨hw.trans hwindow, he.trans henc⟩
    case isFalse => exact ⟨hwindow, henc⟩
  reset := fun first c u ⟨hwindow, henc⟩ => by
    rw [linkResetEndpoints_ep]
    split
    · obtain ⟨hw, he⟩ := linkReset_setup u.cfg.rtoInit (u.ep e)
      exact ⟨hw.trans hwindow, he.trans henc⟩
    · exact ⟨hwindow, henc⟩
  viol := fun _ hu => hu
  session := fun _ _ hs => hs
  tick := fun _ hs => hs
  pull := fun _ _ _ _ _ _ _ => by split <;> exact ⟨rfl, rfl⟩
  move := fun _ _ _ _ _ _ _ _ => ⟨rfl, rfl⟩

theorem AnyRun.now_session {i : Instr} {s t : State} (h : AnyRun i s t) : t.now = s.now ∧ t.session = s.session :=
  h.keeps (p := fun u => u.now = s.now ∧ u.session = s.session) ⟨rfl, rfl⟩ fun _ _ _ _ _ _ hu _ => hu

theorem now_after_tick {s t : State} (h : exec .tick s = .next t) : t.now = s.now + 1 := by
  obtain rfl := Host.Outcome.next.inj h
  obtain ⟨hnow, -⟩ := (run_fireDue (s.setNow (s.now + 1)) (tickRounds s.cfg)).now_session
  exact hnow

theorem session_after_secState {v : SessionState} {s t : State} (h : exec (.secState v) s = .next t) :
    t.session = v := by
  by_cases hv : v = .initialized
  · subst hv
    rw [exec_secState_initialized] at h
    obtain rfl := Host.Outcome.next.inj h
    obtain ⟨-, hsession⟩ := (run_foldl_drainPending (s.setSession .initialized) .txPull (endpointsFrom 0)).now_session
    rw [State.out_session, drainAll, hsession, State.setSession_session]
  · rw [exec_secState_of_ne hv] at h
    obtain rfl := Host.Outcome.next.inj h
    rfl

/-- Settles O55: each part of the state is kept by all the steps of every instruction that may not write it. -/
theorem whoWritesWhat : Obligations.WhoWritesWhat := by
  unfold Obligations.WhoWritesWhat
  intro i s t h
  obtain ⟨hcfg, hinput, hout⟩ := (kept_cfg_input_output i s).exec h ⟨rfl, rfl, List.prefix_refl _⟩
  refine ⟨hcfg, hinput, hout, ?_, ?_, ?_, fun e => ?_⟩
  · by_cases hi : i = .tick
    · subst hi
      exact .inl ⟨rfl, now_after_tick h⟩
    · exact .inr ⟨hi, (kept_now hi s).exec h rfl⟩
  · by_cases hi : ∃ v, i = .secState v
    · obtain ⟨v, rfl⟩ := hi
      exact .inl ⟨v, rfl, session_after_secState h⟩
    · exact .inr ((kept_session (not_exists.mp hi) s).exec h rfl)
  · by_cases hi : ∃ b, i = .rxByte b
    · exact .inl hi
    · exact .inr ((kept_deframer (not_exists.mp hi) s).exec h ⟨rfl, rfl, rfl⟩)
  · by_cases hi : ∃ w enc, i = .openEp e w enc
    · exact .inl hi
    · exact .inr ((kept_setup (fun w enc hopen => hi ⟨w, enc, hopen⟩) s).exec h ⟨rfl, rfl⟩)

end Sys2Proof
end

section
/-! SUPPORT. What the steps of the rules make of single fields of a record: the RX queue, the armed timers and the sticky
error (20_memory.md R91; 00_scope.md R17; 45_endpoint_cmds.md R303). -/

namespace Sys2Proof

open Machine

/-! ## The RX queue (20_memory.md R91) -/

/-- The instructions that put a payload into an RX queue. -/
def fillsRxQueue : Instr → Bool
  | .iFrame _ _ _ _ | .ui _ => true
  | .rr _ _ _ | .rej _ _ _ | .upf _ | .uack _ | .ureset _ | .openEp _ _ _ | .closeEp _ | .write _ _ | .uiSend _ _
  | .rxPop _ | .status _ | .fail _ _ | .linkReset | .secState _ | .rxByte _ | .txPull | .tick => false

theorem peerReset_rxQueue (rtoInit : Nat) (x : Endpoint) : (x.peerReset rtoInit).rxQueue = x.rxQueue := by
  unfold Endpoint.peerReset
  split
  · rfl
  split
  · rfl
  · rfl

/-- A step in the name of any other instruction leaves a back part of the RX queue. -/
theorem Touch.rxQueue_suffix {i : Instr} {s : State} {e : Byte} {y : Endpoint} {q : List Bytes} {o : List Event}
    {n : Nat} (h : Touch i s e y q o n) (hi : fillsRxQueue i = false) : y.rxQueue <:+ (s.ep e).rxQueue := by
  cases h with
  | accepts _ _ _ _ hf | acceptsUI _ hf =>
    subst hf
    exact absurd hi nofun
  | tells | emits | sends | waits | releases | acks | repeats | opensUp | closes | leavesFailed | expires | lapses =>
    exact List.suffix_refl _
  | peerResets => exact ⟨[], peerReset_rxQueue _ _⟩
  | opens | startsClosing | fails | givesUp => exact List.nil_suffix
  | pops P rest _ hq =>
    rw [hq]
    exact List.suffix_cons P rest

theorem linkReset_rxQueue_suffix (rtoInit : Nat) (x : Endpoint) : (x.linkReset rtoInit).rxQueue <:+ x.rxQueue := by
  unfold Endpoint.linkReset
  split
  · exact List.suffix_refl _
  · exact List.nil_suffix

theorem kept_rxQueue_suffix {i : Instr} (hi : fillsRxQueue i = false) (hbyte : ∀ b, i ≠ .rxByte b) (e : Byte)
    (s : State) : Kept i s fun u => (u.ep e).rxQueue <:+ (s.ep e).rxQueue where
  touch := fun j u a y q o n hj hu htouch => by
    rw [touched_ep]
    split
    case isTrue hea =>
      subst hea
      rcases hj with rfl | ⟨b, _, _, hb, _⟩
      · exact (htouch.rxQueue_suffix hi).trans hu
      · exact absurd hb (hbyte b)
    case isFalse => exact hu
  reset := fun first c u hu => by
    rw [linkResetEndpoints_ep]
    split
    · exact (linkReset_rxQueue_suffix _ _).trans hu
    · exact hu
  viol := fun _ hu => hu
  session := fun _ _ hs => hs
  tick := fun _ hs => hs
  pull := fun _ _ _ _ _ _ _ => by split <;> exact List.suffix_refl _
  move := fun b h => absurd h (hbyte b)

/-- A violation leaves a back part of every RX queue. -/
theorem raiseViolation_rxQueue_suffix (r : ViolReason) (s : State) (e : Byte) :
    ((raiseViolation r s).ep e).rxQueue <:+ (s.ep e).rxQueue :=
  (kept_rxQueue_suffix (i := .txPull) rfl nofun e s).raiseViolation (List.suffix_refl _) r

/-- What sending and acknowledging leave of a record: its RX queue and the expected number. -/
theorem Touch.received_of_txPull {s : State} {e : Byte} {y : Endpoint} {q : List Bytes} {o : List Event} {n : Nat}
    (h : Touch .txPull s e y q o n) : y.rxQueue = (s.ep e).rxQueue ∧ y.expectedRx = (s.ep e).expectedRx := by
  cases h with
  | tells | emits | sends | waits | releases | acks | repeats | opensUp => exact ⟨rfl, rfl⟩
  | accepts _ _ _ _ hi | acceptsUI _ hi | peerResets _ hi | closes _ hi | opens _ _ hi | startsClosing hi
  | leavesFailed hi | fails _ hi | pops _ _ hi | expires hi | givesUp hi | lapses hi => exact absurd hi nofun

theorem LocalRun.received_of_txPull {e : Byte} {s t : State} (h : LocalRun .txPull e s t) :
    (t.ep e).rxQueue = (s.ep e).rxQueue ∧ (t.ep e).expectedRx = (s.ep e).expectedRx := by
  refine h.keeps (p := fun u => (u.ep e).rxQueue = (s.ep e).rxQueue ∧ (u.ep e).expectedRx = (s.ep e).expectedRx)
    ⟨rfl, rfl⟩ ?_
  intro u y q o n ⟨hq, hr⟩ htouch
  obtain ⟨hq', hr'⟩ := htouch.received_of_txPull
  rw [touched_ep_self]
  exact ⟨hq'.trans hq, hr'.trans hr⟩

theorem eq_of_inOrder {n expected : Seq} (h : classify n expected = .inOrder) : n = expected := by
  unfold classify at h
  split at h
  case isTrue hzero => bv_omega
  case isFalse =>
    split at h
    · exact absurd h nofun
    · exact absurd h nofun

/-- An I-frame that passes the checks either leaves its endpoint's RX queue, or it is the expected one, and its payload
is put there once. -/
theorem rxI_rxQueue (e : Byte) (n A : Seq) (P : Bytes) (corrupt : Bool) (s : State) :
    ((rxI e n A P corrupt s).ep e).rxQueue = (s.ep e).rxQueue ∨
      n = (s.ep e).expectedRx ∧ corrupt = false ∧
        ((rxI e n A P corrupt s).ep e).rxQueue = (s.ep e).rxQueue ++ [P] ∧
        ((rxI e n A P corrupt s).ep e).expectedRx = (s.ep e).expectedRx + 1 := by
  cases hready : openReady s e with
  | false =>
    rw [rxI_of_not_ready hready]
    exact .inl rfl
  | true =>
    obtain ⟨hopen, -⟩ := (openReady_eq_true_iff s e).mp hready
    rw [rxI_of_ready hready]
    have hack : ∀ u : State, (u.ep e).state = .opened →
        ((processAck e A u).ep e).rxQueue = (u.ep e).rxQueue ∧
          ((processAck e A u).ep e).expectedRx = (u.ep e).expectedRx := fun u hu =>
      (run_processAck .txPull e u A hu).received_of_txPull
    have hstill : ∀ u, LocalRun .txPull e s u → ((processAck e A u).ep e).rxQueue = (s.ep e).rxQueue := by
      intro u hrun
      obtain ⟨hq, -⟩ := hrun.received_of_txPull
      rw [(hack u ((hrun.any.state_eq rfl e).trans hopen)).1, hq]
    cases corrupt with
    | true =>
      rw [rxClassified_of_corrupt]
      exact .inl (hstill _ (run_answered s _ e _ (run_sendREJ _ e)))
    | false =>
      cases hclass : classify n (s.ep e).expectedRx with
      | gap =>
        rw [rxClassified_of_gap hclass]
        exact .inl (hstill _ (run_answered s _ e _ (run_sendREJ _ e)))
      | duplicate =>
        rw [rxClassified_of_duplicate hclass]
        exact .inl (hstill _ (run_answered s _ e _ (run_sendRR _ e)))
      | inOrder =>
        rw [rxClassified_of_inOrder hclass]
        by_cases hroom : (s.ep e).rxQueue.length < s.cfg.rxQueueCap
        · rw [rxInOrder_eq_touched hroom]
          obtain ⟨hq, hr⟩ := hack (s.touched e ((s.ep e).accepts P s) []
            [.delivered e (some (s.ep e).expectedRx) P.length] (stampsSpent (s.ep e).ackTimer.armed))
            (by rw [touched_ep_self]; exact hopen)
          rw [touched_ep_self] at hq hr
          exact .inr ⟨eq_of_inOrder hclass, rfl, hq, hr⟩
        · rw [rxInOrder_of_full (Nat.le_of_not_lt hroom)]
          exact .inl (hstill _ (run_out _ e s _))

theorem rxUI_rxQueue (P : Bytes) (corrupt : Bool) (s : State) :
    ((rxUI P corrupt s).ep 0).rxQueue = (s.ep 0).rxQueue ∨
      corrupt = false ∧ ((rxUI P corrupt s).ep 0).rxQueue = (s.ep 0).rxQueue ++ [P] := by
  unfold rxUI
  split
  · exact .inl rfl
  case isFalse hintact =>
    split
    · exact .inl rfl
    split
    · exact .inl rfl
    · exact .inr ⟨Bool.eq_false_iff.mpr hintact, by rw [State.out_ep, State.modEp_ep_self]⟩

/-- Settles O57: the I-frame by its classification, the UI frame by its checks, and every other instruction by its
steps. -/
theorem rxQueueGrowsInOrder : Obligations.RxQueueGrowsInOrder := by
  unfold Obligations.RxQueueGrowsInOrder
  intro i e s t hbyte h
  cases hfill : fillsRxQueue i with
  | false => exact .inl ((kept_rxQueue_suffix hfill hbyte e s).exec h (List.suffix_refl _))
  | true =>
    cases i with
    | iFrame f n pf A =>
      cases hviol : frameViolation .i f.addr f.payload with
      | some r =>
        rw [exec_frame_of_violation (k := .i) rfl hviol] at h
        obtain rfl := Host.Outcome.next.inj h
        exact .inl (raiseViolation_rxQueue_suffix r s e)
      | none =>
        rw [exec_frame_of_pass (k := .i) rfl hviol] at h
        obtain rfl := Host.Outcome.next.inj h
        by_cases he : e = f.addr
        · subst he
          rcases rxI_rxQueue f.addr n A f.payload f.corrupt s with hsame | ⟨rfl, hintact, hq, hr⟩
          · exact .inl (hsame ▸ List.suffix_refl _)
          · exact .inr (.inl ⟨f, pf, A, rfl, rfl, hintact, hq, hr⟩)
        · have hsame := (run_receiveRule s (i := .iFrame f n pf A) rfl hviol nofun).ep_of_ne he
          exact .inl (hsame ▸ List.suffix_refl _)
    | ui f =>
      cases hviol : frameViolation .ui f.addr f.payload with
      | some r =>
        rw [exec_frame_of_violation (k := .ui) rfl hviol] at h
        obtain rfl := Host.Outcome.next.inj h
        exact .inl (raiseViolation_rxQueue_suffix r s e)
      | none =>
        rw [exec_frame_of_pass (k := .ui) rfl hviol] at h
        obtain rfl := Host.Outcome.next.inj h
        obtain ⟨-, -, -, hzero⟩ := (frameViolation_eq_none_iff _ _ _).mp hviol
        by_cases he : e = 0
        · subst he
          rcases rxUI_rxQueue f.payload f.corrupt s with hsame | ⟨hintact, hq⟩
          · exact .inl (hsame ▸ List.suffix_refl _)
          · exact .inr (.inr ⟨f, rfl, hzero rfl, rfl, hintact, hq⟩)
        · have hsame := (run_rxUI s (i := .ui f) rfl).ep_of_ne he
          exact .inl (hsame ▸ List.suffix_refl _)
    | rr | rej | upf | uack | ureset | openEp | closeEp | write | uiSend | rxPop | status | fail | linkReset | secState
    | rxByte | txPull | tick => exact absurd hfill nofun

/-! ## The stamps of armed timers (10_state.md R32; 00_scope.md R17) -/

/-- One of the two timers of a record. -/
def Machine.Endpoint.timer (x : Endpoint) : TimerKind → Timer
  | .rtx => x.rtxTimer
  | .ack => x.ackTimer

theorem timerOf_eq (s : State) (t : TimerRef) : timerOf s t = (s.ep t.ep).timer t.kind := by
  unfold timerOf
  cases t.kind <;> rfl

/-- If every armed timer is as before but one, which carries a fresh stamp, the stamps stay distinct. -/
theorem stampsDistinct_of_one_armed {s t : State} (h : StampsDistinct s) (hle : s.armCounter ≤ t.armCounter)
    (a : TimerRef) (hnew : ∀ u, (timerOf t u).armed = true → timerOf t u = timerOf s u ∨
      u = a ∧ (timerOf t u).armSeq = s.armCounter ∧ s.armCounter < t.armCounter) : StampsDistinct t where
  spent := fun u hu => by
    rcases hnew u hu with hsame | ⟨-, hseq, hlt⟩
    · rw [hsame] at hu ⊢
      exact Nat.lt_of_lt_of_le (h.spent u hu) hle
    · rw [hseq]
      exact hlt
  distinct := fun u v hu hv huv => by
    rcases hnew u hu with hsame | ⟨hua, hseq, -⟩
    · rcases hnew v hv with hsame' | ⟨-, hseq', -⟩
      · rw [hsame] at hu huv
        rw [hsame'] at hv huv
        exact h.distinct u v hu hv huv
      · rw [hsame] at hu huv
        exact absurd (huv.trans hseq') (Nat.ne_of_lt (h.spent u hu))
    · rcases hnew v hv with hsame' | ⟨hva, -⟩
      · rw [hsame'] at hv huv
        exact absurd (huv.symm.trans hseq) (Nat.ne_of_lt (h.spent v hv))
      · exact hua.trans hva.symm

/-- From the record `x` to `y` at most one timer is armed, with the stamp `c`, which is spent (`n`); the other timers run
on or are cancelled. -/
def ArmsOne (x y : Endpoint) (c n : Nat) : Prop :=
  ∃ k₀, ∀ k, (y.timer k).armed = true → y.timer k = x.timer k ∨ k = k₀ ∧ (y.timer k).armSeq = c ∧ n = 1

/-- A timer runs on or is cancelled. -/
def notRearmed (old new : Timer) : Prop := new.armed = true → new = old

theorem notRearmed_refl (t : Timer) : notRearmed t t := fun _ => rfl

theorem notRearmed_off (t : Timer) : notRearmed t Timer.off := nofun

theorem armsOne_rtx {x y : Endpoint} {c n : Nat}
    (hr : y.rtxTimer.armed = true → y.rtxTimer = x.rtxTimer ∨ y.rtxTimer.armSeq = c ∧ n = 1)
    (ha : notRearmed x.ackTimer y.ackTimer) : ArmsOne x y c n :=
  ⟨.rtx, fun k => match k with
    | .rtx => fun h => (hr h).imp_right fun hnew => ⟨rfl, hnew⟩
    | .ack => fun h => .inl (ha h)⟩

theorem armsOne_ack {x y : Endpoint} {c n : Nat} (hr : notRearmed x.rtxTimer y.rtxTimer)
    (ha : y.ackTimer.armed = true → y.ackTimer = x.ackTimer ∨ y.ackTimer.armSeq = c ∧ n = 1) : ArmsOne x y c n :=
  ⟨.ack, fun k => match k with
    | .rtx => fun h => .inl (hr h)
    | .ack => fun h => (ha h).imp_right fun hnew => ⟨rfl, hnew⟩⟩

theorem armsOne_none {x y : Endpoint} {c n : Nat} (hr : notRearmed x.rtxTimer y.rtxTimer)
    (ha : notRearmed x.ackTimer y.ackTimer) : ArmsOne x y c n :=
  armsOne_rtx (fun h => .inl (hr h)) ha

/-- A timer armed unless it runs. -/
theorem armed_unless_running (old new : Timer) :
    (if old.armed then old else new) = old ∨ (if old.armed then old else new) = new ∧ stampsSpent old.armed = 1 := by
  cases h : old.armed with
  | true => exact .inl (if_pos rfl)
  | false => exact .inr ⟨if_neg Bool.false_ne_true, rfl⟩

theorem peerReset_timers (rtoInit : Nat) (x : Endpoint) :
    notRearmed x.rtxTimer (x.peerReset rtoInit).rtxTimer ∧ notRearmed x.ackTimer (x.peerReset rtoInit).ackTimer := by
  unfold Endpoint.peerReset
  split
  · exact ⟨notRearmed_off _, notRearmed_off _⟩
  split
  · exact ⟨notRearmed_off _, notRearmed_off _⟩
  · exact ⟨notRearmed_refl _, notRearmed_refl _⟩

theorem releases_rtxTimer (k : Nat) (s : State) (x : Endpoint) (harmed : (x.releases k s).rtxTimer.armed = true) :
    (x.releases k s).rtxTimer.armSeq = s.armCounter ∧ stampsSpent (decide (x.rtxQueue.length = k)) = 1 := by
  unfold Endpoint.releases at harmed ⊢
  by_cases hall : x.rtxQueue.length = k
  · rw [if_pos hall] at harmed
    exact absurd harmed nofun
  · rw [if_neg hall, decide_eq_false hall]
    exact ⟨rfl, rfl⟩

/-- A step arms at most one timer. -/
theorem Touch.armsOne {i : Instr} {s : State} {e : Byte} {y : Endpoint} {q : List Bytes} {o : List Event} {n : Nat}
    (h : Touch i s e y q o n) : ArmsOne (s.ep e) y s.armCounter n := by
  cases h with
  | tells | emits | waits | acceptsUI | opensUp | closes | leavesFailed | pops =>
    exact armsOne_none (notRearmed_refl _) (notRearmed_refl _)
  | acks | lapses => exact armsOne_none (notRearmed_refl _) (notRearmed_off _)
  | opens | startsClosing | fails | givesUp => exact armsOne_none (notRearmed_off _) (notRearmed_off _)
  | peerResets =>
    obtain ⟨hr, ha⟩ := peerReset_timers s.cfg.rtoInit (s.ep e)
    exact armsOne_none hr ha
  | sends =>
    refine armsOne_rtx (fun _ => ?_) (notRearmed_off _)
    exact (armed_unless_running (s.ep e).rtxTimer _).imp_right fun ⟨hnew, hspent⟩ =>
      ⟨congrArg Timer.armSeq hnew, hspent⟩
  | releases k => exact armsOne_rtx (fun harmed => .inr (releases_rtxTimer k s _ harmed)) (notRearmed_refl _)
  | repeats | expires => exact armsOne_rtx (fun _ => .inr ⟨rfl, rfl⟩) (notRearmed_refl _)
  | accepts =>
    refine armsOne_ack (notRearmed_refl _) fun _ => ?_
    exact (armed_unless_running (s.ep e).ackTimer _).imp_right fun ⟨hnew, hspent⟩ =>
      ⟨congrArg Timer.armSeq hnew, hspent⟩

theorem stampsDistinct_touched {s : State} (h : StampsDistinct s) (e : Byte) {y : Endpoint} (q : List Bytes)
    (o : List Event) {n : Nat} (hy : ArmsOne (s.ep e) y s.armCounter n) : StampsDistinct (s.touched e y q o n) := by
  obtain ⟨k₀, hk⟩ := hy
  refine stampsDistinct_of_one_armed h (Nat.le_add_right _ n) ⟨e, k₀⟩ fun u hu => ?_
  rw [timerOf_eq, touched_ep] at hu ⊢
  rw [timerOf_eq]
  split at hu
  case isTrue hue =>
    rw [if_pos hue, hue]
    refine (hk u.kind hu).imp_right fun ⟨hkind, hseq, hn⟩ => ⟨?_, hseq, ?_⟩
    · obtain ⟨a, k⟩ := u
      rw [TimerRef.mk.injEq]
      exact ⟨hue, hkind⟩
    · rw [touched_armCounter, hn]
      exact Nat.lt_succ_self _
  case isFalse hue =>
    rw [if_neg hue]
    exact .inl rfl

/-- Where no timer is armed anew, the stamps stay distinct. -/
theorem stampsDistinct_of_not_rearmed {s t : State} (h : StampsDistinct s) (hcount : t.armCounter = s.armCounter)
    (hep : ∀ e, notRearmed (s.ep e).rtxTimer (t.ep e).rtxTimer ∧ notRearmed (s.ep e).ackTimer (t.ep e).ackTimer) :
    StampsDistinct t := by
  refine stampsDistinct_of_one_armed h (Nat.le_of_eq hcount.symm) ⟨0, .rtx⟩ fun u hu => .inl ?_
  obtain ⟨hr, ha⟩ := hep u.ep
  rw [timerOf_eq] at hu
  rw [timerOf_eq, timerOf_eq]
  cases hk : u.kind with
  | rtx => exact hr (by rw [hk] at hu; exact hu)
  | ack => exact ha (by rw [hk] at hu; exact hu)

theorem stampsDistinct_of_same_eps {s t : State} (h : StampsDistinct s) (hcount : t.armCounter = s.armCounter)
    (hep : ∀ e, t.ep e = s.ep e) : StampsDistinct t :=
  stampsDistinct_of_not_rearmed h hcount fun e => by
    rw [hep]
    exact ⟨notRearmed_refl _, notRearmed_refl _⟩

theorem linkReset_timers (rtoInit : Nat) (x : Endpoint) :
    notRearmed x.rtxTimer (x.linkReset rtoInit).rtxTimer ∧ notRearmed x.ackTimer (x.linkReset rtoInit).ackTimer := by
  unfold Endpoint.linkReset
  split
  · exact ⟨notRearmed_refl _, notRearmed_refl _⟩
  · exact ⟨notRearmed_off _, notRearmed_off _⟩

theorem kept_stampsDistinct (i : Instr) (s : State) : Kept i s StampsDistinct where
  touch := fun _ _ e _ q o _ _ hu htouch => stampsDistinct_touched hu e q o htouch.armsOne
  reset := fun first c u hu => by
    obtain ⟨-, -, -, -, -, -, -, hcount⟩ := linkResetEndpoints_fields first c u
    refine stampsDistinct_of_not_rearmed hu hcount fun e => ?_
    rw [linkResetEndpoints_ep]
    split
    · exact linkReset_timers _ _
    · exact ⟨notRearmed_refl _, notRearmed_refl _⟩
  viol := fun _ hu => stampsDistinct_of_same_eps hu rfl fun _ => rfl
  session := fun _ _ hs => stampsDistinct_of_same_eps hs rfl fun _ => rfl
  tick := fun _ hs => stampsDistinct_of_same_eps hs rfl fun _ => rfl
  pull := fun _ hs F rest b _ _ => by split <;> exact stampsDistinct_of_same_eps hs rfl fun _ => rfl
  move := fun _ _ hs _ _ _ _ _ => stampsDistinct_of_same_eps hs rfl fun _ => rfl

/-- Settles O58: a step takes its input event, and then every step of the command keeps the stamps apart. -/
theorem stampsStayDistinct : Obligations.StampsStayDistinct := by
  unfold Obligations.StampsStayDistinct
  intro s t hs h
  have hinput : ∀ rest, StampsDistinct (s.setInput rest) := fun rest =>
    stampsDistinct_of_same_eps hs rfl fun _ => rfl
  rcases step_cases s with hstay | ⟨rest, b, hreject⟩ | ⟨rest, i, hrun, -⟩
  · obtain rfl := Host.Outcome.next.inj (hstay.symm.trans h)
    exact hs
  · obtain rfl := Host.Outcome.next.inj (hreject.symm.trans h)
    exact stampsDistinct_of_same_eps (hinput rest) rfl fun _ => rfl
  · exact (kept_stampsDistinct i _).exec (hrun.symm.trans h) (hinput rest)

/-! ## The sticky error (45_endpoint_cmds.md R303, R310) -/

/-- The endpoint is in the sticky error, and its rtx timer does not run. -/
def stuck (x : Endpoint) : Prop := x.state = .error .securityIncident ∧ x.rtxTimer.armed = false

/-- Only a step on an Open endpoint arms an rtx timer that does not run. -/
theorem Touch.rtx_idle {i : Instr} {s : State} {e : Byte} {y : Endpoint} {q : List Bytes} {o : List Event} {n : Nat}
    (h : Touch i s e y q o n) (hclosed : (s.ep e).state ≠ .opened) (hidle : (s.ep e).rtxTimer.armed = false) :
    y.rtxTimer.armed = false := by
  cases h with
  | tells | emits | waits | acks | accepts | acceptsUI | opensUp | closes | leavesFailed | pops | lapses => exact hidle
  | opens | startsClosing | fails | givesUp => rfl
  | sends _ _ _ hsend =>
    obtain ⟨hopen, -⟩ := (canSend_eq_true_iff s e).mp hsend
    exact absurd hopen hclosed
  | releases _ hopen | repeats hopen => exact absurd hopen hclosed
  | expires _ harmed => exact absurd hidle (ne_false_of_eq_true harmed)
  | peerResets =>
    obtain ⟨hr, -⟩ := peerReset_timers s.cfg.rtoInit (s.ep e)
    refine Bool.eq_false_iff.mpr fun harmed => ?_
    rw [hr harmed] at harmed
    exact absurd hidle (ne_false_of_eq_true harmed)

theorem StateChange.of_sticky {i : Instr} {e : Byte} {x : Endpoint} {st : EpState} (h : StateChange i e x st)
    (hx : stuck x) : st = .error .securityIncident := by
  obtain ⟨hst, hidle⟩ := hx
  cases h with
  | none => exact hst
  | closed _ _ _ _ hclosing => exact absurd (hst.symm.trans hclosing) nofun
  | freed _ hfailed =>
    rcases hfailed with hlost | ⟨k, hk, hother⟩
    · exact absurd (hst.symm.trans hlost) nofun
    · exact absurd (EpState.error.inj (hst.symm.trans hk)).symm hother
  | opened _ _ _ _ _ hother => exact absurd hst hother
  | closing _ hopen => exact absurd (hst.symm.trans hopen) nofun
  | failed cause _ _ hguard =>
    obtain rfl : cause = .securityIncident := Decidable.not_not.mp fun hother => hguard ⟨hst, hother⟩
    rfl
  | gaveUp _ harmed => exact absurd hidle (ne_false_of_eq_true harmed)

/-- No step leaves the sticky error. -/
theorem Touch.keeps_stuck {i : Instr} {s : State} {e : Byte} {y : Endpoint} {q : List Bytes} {o : List Event} {n : Nat}
    (h : Touch i s e y q o n) (hs : stuck (s.ep e)) : stuck y :=
  ⟨h.stateChange.of_sticky hs, h.rtx_idle (by rw [hs.1]; nofun) hs.2⟩

theorem AnyRun.keeps_stuck {i : Instr} {s t : State} (h : AnyRun i s t) {e : Byte} (hs : stuck (s.ep e)) :
    stuck (t.ep e) := by
  refine h.keeps (p := fun u => stuck (u.ep e)) hs ?_
  intro u a y q o n hu htouch
  rw [touched_ep]
  split
  case isTrue hea =>
    subst hea
    exact htouch.keeps_stuck hu
  case isFalse => exact hu

/-- The endpoint has become Closed by a link reset that the host has been told of since `s`. -/
def resetSince (s t : State) (e : Byte) : Prop :=
  (t.ep e).state = .closed ∧ ∃ c, .linkReset c ∈ t.output.drop s.output.length

theorem mem_drop_of_prefix {α : Type} {a : α} {n : Nat} {l l' : List α} (hpre : l <+: l') (h : a ∈ l.drop n) :
    a ∈ l'.drop n := by
  obtain ⟨r, rfl⟩ := hpre
  rw [List.drop_append]
  exact List.mem_append_left _ h

theorem linkReset_mem_output (first : Nat) (c : ResetCause) {s u : State} (hpre : s.output <+: u.output) :
    .linkReset c ∈ (linkResetEndpoints first c u).output.drop s.output.length := by
  have hlen : s.output.length ≤ (u.output ++ resetEvents u (endpointsFrom first)).length := by
    rw [List.length_append]
    exact Nat.le_trans hpre.length_le (Nat.le_add_right _ _)
  rw [linkResetEndpoints_output, List.drop_append_of_le_length hlen]
  exact List.mem_append_right _ (List.mem_singleton.mpr rfl)

theorem linkReset_state (rtoInit : Nat) (x : Endpoint) : (x.linkReset rtoInit).state = .closed := by
  unfold Endpoint.linkReset
  split
  case isTrue h => exact h
  case isFalse => rfl

/-- A link reset leaves an endpoint below `first`, and closes any other. -/
theorem linkResetEndpoints_stuck (first : Nat) (c : ResetCause) {s u : State} {e : Byte}
    (hpre : s.output <+: u.output) (hu : stuck (u.ep e)) :
    (e.toNat < first ∧ stuck ((linkResetEndpoints first c u).ep e)) ∨
      (first ≤ e.toNat ∧ resetSince s (linkResetEndpoints first c u) e) := by
  by_cases hfirst : first ≤ e.toNat
  · refine .inr ⟨hfirst, ?_, c, linkReset_mem_output first c hpre⟩
    rw [linkResetEndpoints_ep, if_pos hfirst, linkReset_state]
  · refine .inl ⟨Nat.lt_of_not_le hfirst, ?_⟩
    rw [linkResetEndpoints_ep, if_neg hfirst]
    exact hu

theorem stuck_out {u : State} {e : Byte} (h : stuck (u.ep e)) (ev : Event) : stuck ((u.out ev).ep e) := h

theorem resetSince_out {s u : State} {e : Byte} (h : resetSince s u e) (ev : Event) : resetSince s (u.out ev) e := by
  obtain ⟨hclosed, c, hmem⟩ := h
  exact ⟨hclosed, c, mem_drop_of_prefix (List.prefix_append _ _) hmem⟩

theorem raiseViolation_stuck (r : ViolReason) {s u : State} {e : Byte} (hpre : s.output <+: u.output)
    (hu : stuck (u.ep e)) :
    stuck ((raiseViolation r u).ep e) ∨ resetSince s (raiseViolation r u) e := by
  rcases raiseViolation_cases r u with ⟨-, h⟩ | ⟨-, h⟩
  · rw [h]
    exact .inl hu
  · have hstamped : s.output <+: u.output ++ [.violation r] := hpre.trans (List.prefix_append _ _)
    have hreset := linkResetEndpoints_stuck 0 .violations (s := s) (e := e)
      (u := { u with output := u.output ++ [.violation r], violHist := violHistAfter u }) hstamped hu
    rw [← h] at hreset
    exact hreset.imp And.right And.right

theorem AnyRun.output_prefix {i : Instr} {s t : State} (h : AnyRun i s t) : s.output <+: t.output :=
  h.keeps (p := fun u => s.output <+: u.output) (List.prefix_refl _) fun _ _ _ _ o _ hu _ =>
    hu.trans (List.prefix_append _ o)

/-- A link reset of the other endpoints, and steps on endpoint 0 after it. -/
theorem reset_then_run_stuck {i : Instr} {c : ResetCause} {s u t : State} {e : Byte} (hpre : s.output <+: u.output)
    (hu : stuck (u.ep e)) (hrun : LocalRun i 0 (linkResetEndpoints 1 c u) t) :
    stuck (t.ep e) ∨ resetSince s t e := by
  rcases linkResetEndpoints_stuck 1 c hpre hu with ⟨-, hstuck⟩ | ⟨hpos, hclosed, c', hmem⟩
  · exact .inl (hrun.any.keeps_stuck hstuck)
  · have hne : e ≠ 0 := by
      rintro rfl
      exact absurd hpos (by decide)
    refine .inr ⟨by rw [hrun.ep_of_ne hne, hclosed], c', mem_drop_of_prefix hrun.any.output_prefix hmem⟩

/-- A frame instruction on a stuck endpoint. -/
theorem frame_stuck {j : Instr} {k : FrameKind} {f : RxFrame} (hf : instrFrame j = some (k, f)) {s u t : State}
    {e : Byte} (hpre : s.output <+: u.output) (hu : stuck (u.ep e)) (h : exec j u = .next t) :
    stuck (t.ep e) ∨ resetSince s t e := by
  cases ran_frame hf h with
  | locally _ hrun => exact .inl (hrun.any.keeps_stuck hu)
  | violates => exact raiseViolation_stuck _ hpre hu
  | resets _ _ hrun => exact reset_then_run_stuck hpre hu hrun
  | linkReset hi | session hi | ticks hi | pulls hi | byte hi =>
    subst hi
    exact absurd hf nofun

theorem execTxPull_ep {s t : State} (h : execTxPull s = .next t) (e : Byte) : t.ep e = s.ep e := by
  unfold execTxPull at h
  split at h
  case h_1 =>
    obtain rfl := Host.Outcome.next.inj h
    rfl
  case h_2 =>
    split at h
    case h_1 => exact absurd h nofun
    case h_2 =>
      obtain rfl := Host.Outcome.next.inj h
      split <;> rfl

/-- Settles O60: steps leave a stuck endpoint stuck, and what is left is a link reset. -/
theorem securityIncidentIsSticky : Obligations.SecurityIncidentIsSticky := by
  unfold Obligations.SecurityIncidentIsSticky
  intro i e s t hst hidle h
  have hs : stuck (s.ep e) := ⟨hst, hidle⟩
  have hgoal : stuck (t.ep e) ∨ resetSince s t e := by
    cases ran_exec h with
    | locally _ hrun => exact .inl (hrun.any.keeps_stuck hs)
    | violates => exact raiseViolation_stuck _ (List.prefix_refl _) hs
    | resets _ _ hrun => exact reset_then_run_stuck (List.prefix_refl _) hs hrun
    | linkReset =>
      rcases linkResetEndpoints_stuck 0 .host (List.prefix_refl s.output) hs with ⟨-, hstuck⟩ | ⟨-, hreset⟩
      · exact .inl (stuck_out hstuck _)
      · exact .inr (resetSince_out hreset _)
    | session _ hrun => exact .inl (hrun.keeps_stuck hs)
    | ticks _ hrun => exact .inl (hrun.keeps_stuck hs)
    | pulls _ hpull => exact .inl (by rw [execTxPull_ep hpull]; exact hs)
    | byte _ hbyte =>
      have hmoved : ∀ o, s.output <+: s.output ++ o := fun o => List.prefix_append _ o
      cases byteRan_execRxByte hbyte with
      | moves => exact .inl hs
      | violates r o => exact raiseViolation_stuck r (u := s.rxMoved .hunt [] 0 o) (hmoved o) hs
      | runs hf hrun _ => exact frame_stuck hf (u := s.rxMoved .hunt [] 0 _) (hmoved _) hs hrun
  exact hgoal.imp_left And.left

end Sys2Proof
end

section
/-! SUPPORT. The legal records of an endpoint under every step of the rules (10_state.md R55, (I1) to (I5)). -/

namespace Sys2Proof

open Machine

/-! ## The outstanding mask (10_state.md R46) -/

theorem getLsbD_seqBit : ∀ m n : Seq, (seqBit m).getLsbD n.toNat = decide (m = n) := by decide

theorem getLsbD_or_seqBit (v : BitVec 8) (m n : Seq) :
    (v ||| seqBit m).getLsbD n.toNat = true ↔ v.getLsbD n.toNat = true ∨ m = n := by
  rw [BitVec.getLsbD_or, getLsbD_seqBit, Bool.or_eq_true, decide_eq_true_eq]

theorem getLsbD_clear_seqBit (v : BitVec 8) (m n : Seq) :
    (v &&& ~~~ (seqBit m)).getLsbD n.toNat = true ↔ v.getLsbD n.toNat = true ∧ m ≠ n := by
  have hlt : n.toNat < 8 := n.isLt
  rw [BitVec.getLsbD_and, BitVec.getLsbD_not, getLsbD_seqBit, Bool.and_eq_true, decide_eq_true hlt, Bool.true_and,
    Bool.not_eq_true', decide_eq_false_iff_not]

theorem getLsbD_foldl_clear (l : List RtxEntry) (v : BitVec 8) (n : Seq) :
    (l.foldl (fun m E => m &&& ~~~ (seqBit E.seq)) v).getLsbD n.toNat = true ↔
      v.getLsbD n.toNat = true ∧ ∀ E ∈ l, E.seq ≠ n := by
  induction l generalizing v with
  | nil => simp
  | cons E l ih => rw [List.foldl_cons, ih, getLsbD_clear_seqBit, List.forall_mem_cons, and_assoc]

/-- A mask with exactly the bits of distinct numbers counts them. -/
theorem popcount_eq_length {v : BitVec 8} {l : List Seq} (hmask : ∀ n : Seq, v.getLsbD n.toNat = true ↔ n ∈ l)
    (hnodup : l.Nodup) : popcount v = l.length := by
  rw [popcount, ← List.length_map (as := l) BitVec.toNat]
  refine List.Perm.length_eq ((List.perm_ext_iff_of_nodup (List.Pairwise.filter _ List.nodup_range)
    (List.Pairwise.map _ (fun _ _ hne heq => hne (BitVec.eq_of_toNat_eq heq)) hnodup)).mpr fun i => ?_)
  rw [List.mem_filter, List.mem_range, List.mem_map]
  constructor
  · rintro ⟨hlt, hbit⟩
    have hi : (BitVec.ofNat 3 i).toNat = i := by rw [BitVec.toNat_ofNat, Nat.mod_eq_of_lt hlt]
    exact ⟨BitVec.ofNat 3 i, (hmask _).mp (by rw [hi]; exact hbit), hi⟩
  · rintro ⟨n, hn, rfl⟩
    exact ⟨n.isLt, (hmask n).mpr hn⟩

/-! ## The numbers of a retransmit queue (R55 (I2)) -/

/-- The numbers of a queue run consecutively from `base`. -/
def RunsFrom (base : Seq) (q : List RtxEntry) : Prop := ∀ i E, q[i]? = some E → E.seq = base + BitVec.ofNat 3 i

theorem RunsFrom.seqs {base : Seq} {q : List RtxEntry} (h : RunsFrom base q) :
    q.map (·.seq) = (List.range q.length).map fun i => base + BitVec.ofNat 3 i := by
  refine List.ext_getElem (by simp) fun i hi _ => ?_
  rw [List.length_map] at hi
  rw [List.getElem_map, List.getElem_map, List.getElem_range]
  exact h i _ (List.getElem?_eq_getElem hi)

theorem RunsFrom.nodup {base : Seq} {q : List RtxEntry} (h : RunsFrom base q) (hlen : q.length ≤ 8) :
    (q.map (·.seq)).Nodup := by
  rw [h.seqs]
  refine List.pairwise_map.mpr (List.Pairwise.imp_of_mem (fun {i j} hi hj hne hij => ?_) List.nodup_range)
  rw [List.mem_range] at hi hj
  have heq := congrArg BitVec.toNat hij
  rw [BitVec.toNat_add, BitVec.toNat_add, BitVec.toNat_ofNat, BitVec.toNat_ofNat] at heq
  omega

theorem RunsFrom.append {base : Seq} {q : List RtxEntry} (h : RunsFrom base q) {E : RtxEntry}
    (hE : E.seq = base + BitVec.ofNat 3 q.length) : RunsFrom base (q ++ [E]) := by
  intro i E' hi
  rcases Nat.lt_or_ge i q.length with hlt | hge
  · rw [List.getElem?_append_left hlt] at hi
    exact h i E' hi
  · obtain ⟨hlast, rfl⟩ : i = q.length ∧ E = E' := by
      rw [List.getElem?_append_right hge, List.getElem?_singleton] at hi
      split at hi
      case isTrue hzero => exact ⟨by omega, Option.some.inj hi⟩
      case isFalse => exact absurd hi nofun
    rw [hlast, hE]

theorem RunsFrom.drop {base : Seq} {q : List RtxEntry} (h : RunsFrom base q) (k : Nat) :
    RunsFrom (base + BitVec.ofNat 3 k) (q.drop k) := by
  intro i E hi
  rw [List.getElem?_drop] at hi
  rw [h _ E hi, BitVec.ofNat_add, BitVec.add_assoc]

/-- The legal part of a record that concerns its retransmit queue: (I1) and (I2). -/
structure StoreInv (mtu : Nat) (e : Byte) (x : Endpoint) : Prop where
  short : x.rtxQueue.length ≤ 7
  runs : RunsFrom (ackBase x) x.rtxQueue
  next : x.nextTx = ackBase x + BitVec.ofNat 3 x.rtxQueue.length
  mask : ∀ n : Seq, x.outstanding.getLsbD n.toNat = true ↔ n ∈ x.rtxQueue.map (·.seq)
  stored : ∀ E ∈ x.rtxQueue, StoredIFrame mtu e E

theorem Machine.EpInv.store {cfg : Config} {e : Byte} {x : Endpoint} (h : EpInv cfg e x) : StoreInv cfg.mtu e x where
  short := Nat.le_trans h.within_window (Nat.le_of_lt_succ x.window.isLt)
  runs := h.consecutive
  next := h.next_after_last
  mask := fun n => (h.mask_exact n).trans List.mem_map.symm
  stored := h.stored

theorem StoreInv.count {mtu : Nat} {e : Byte} {x : Endpoint} (h : StoreInv mtu e x) :
    popcount x.outstanding = x.rtxQueue.length := by
  rw [popcount_eq_length h.mask (h.runs.nodup (Nat.le_succ_of_le h.short)), List.length_map]

/-- A legal record whose retransmit queue, mask and next number are replaced by legal ones. -/
theorem Machine.EpInv.of_store {cfg : Config} {e : Byte} {x y : Endpoint} (h : EpInv cfg e x) (hopen : x.state = .opened)
    (hstore : StoreInv cfg.mtu e y) (hwindow : y.rtxQueue.length ≤ y.window.toNat)
    (hrtx : y.rtxTimer.armed = true ↔ y.rtxQueue ≠ []) (hack : y.ackTimer.armed = true → y.ackPending = true)
    (hrto : cfg.rtoInit ≤ y.rto ∧ y.rto ≤ cfg.rtoMax) (hretry : y.retryCount ≤ cfg.maxRetries + 1)
    (hkept : y.window = x.window ∧ y.state = x.state ∧ y.pending = x.pending ∧ y.rxQueue = x.rxQueue) :
    EpInv cfg e y := by
  obtain ⟨hw, hst, hpending, hrx⟩ := hkept
  have hopen' : y.state = .opened := hst.trans hopen
  exact {
    window_pos := hw ▸ h.window_pos
    outstanding_count := hstore.count
    within_window := hwindow
    consecutive := hstore.runs
    next_after_last := hstore.next
    mask_exact := fun n => (hstore.mask n).trans List.mem_map
    stored := hstore.stored
    rtx_armed := hrtx
    ack_armed := hack
    idle_unless_open := fun hne => absurd hopen' hne
    awaiting_open := fun _ => hopen'
    rxQueue_open := fun hne => absurd hopen' hne
    seq_open := fun hne => absurd hopen' hne
    rto_range := hrto
    retry_range := hretry
    pending_range := hpending ▸ h.pending_range
    rxQueue_range := hrx ▸ h.rxQueue_range }

/-! ## Sending and acknowledging (44_arq.md R257, R260) -/

/-- The base after a frame with the next number is stored behind the others. -/
theorem ackBase_sends (F : Bytes) (s : State) (x : Endpoint) : ackBase (x.sends F s) = ackBase x := by
  have hqueue : (x.sends F s).rtxQueue = x.rtxQueue ++ [{ seq := x.nextTx, frame := F, sendTime := s.now }] := rfl
  rw [ackBase, ackBase, hqueue]
  cases x.rtxQueue <;> rfl

theorem StoreInv.sends {mtu : Nat} {e : Byte} {x : Endpoint} (h : StoreInv mtu e x) (hroom : x.rtxQueue.length < 7)
    (ack : Seq) {P : Bytes} (hP : P.length ≤ mtu) (s : State) :
    StoreInv mtu e (x.sends (frameBytes e (ctrlI x.nextTx ack true) P) s) where
  short := by
    change (x.rtxQueue ++ [_]).length ≤ 7
    rw [List.length_append, List.length_singleton]
    exact hroom
  runs := by
    rw [ackBase_sends]
    exact h.runs.append h.next
  next := by
    rw [ackBase_sends]
    change x.nextTx + 1 = ackBase x + BitVec.ofNat 3 (x.rtxQueue ++ [_]).length
    rw [h.next, List.length_append, List.length_singleton, BitVec.ofNat_add, BitVec.add_assoc]
    rfl
  mask := fun n => by
    change (x.outstanding ||| seqBit x.nextTx).getLsbD n.toNat = true ↔ n ∈ (x.rtxQueue ++ [(_ : RtxEntry)]).map (·.seq)
    rw [getLsbD_or_seqBit, h.mask, List.map_append, List.mem_append, List.map_singleton, List.mem_singleton, eq_comm]
  stored := List.forall_mem_append.mpr ⟨h.stored, List.forall_mem_singleton.mpr ⟨ack, P, hP, rfl⟩⟩

/-- The base after the `k` oldest frames are released. -/
theorem StoreInv.ackBase_releases {mtu : Nat} {e : Byte} {x : Endpoint} (h : StoreInv mtu e x) {k : Nat}
    (hk : k ≤ x.rtxQueue.length) (s : State) : ackBase (x.releases k s) = ackBase x + BitVec.ofNat 3 k := by
  have hqueue : (x.releases k s).rtxQueue = x.rtxQueue.drop k := rfl
  rw [ackBase_eq_getD, hqueue, List.head?_drop]
  cases hE : x.rtxQueue[k]? with
  | none =>
    have hall : k = x.rtxQueue.length := Nat.le_antisymm hk (List.getElem?_eq_none_iff.mp hE)
    rw [hall]
    exact h.next
  | some E => exact h.runs k E hE

theorem StoreInv.releases {mtu : Nat} {e : Byte} {x : Endpoint} (h : StoreInv mtu e x) {k : Nat}
    (hk : k ≤ x.rtxQueue.length) (s : State) : StoreInv mtu e (x.releases k s) where
  short := by
    change (x.rtxQueue.drop k).length ≤ 7
    exact Nat.le_trans (List.length_drop ▸ Nat.sub_le _ _) h.short
  runs := by
    rw [h.ackBase_releases hk]
    exact h.runs.drop k
  next := by
    rw [h.ackBase_releases hk]
    change x.nextTx = ackBase x + BitVec.ofNat 3 k + BitVec.ofNat 3 (x.rtxQueue.drop k).length
    rw [h.next, List.length_drop, BitVec.add_assoc, ← BitVec.ofNat_add, Nat.add_sub_cancel' hk]
  mask := fun n => by
    change ((x.rtxQueue.take k).foldl _ x.outstanding).getLsbD n.toNat = true ↔ n ∈ (x.rtxQueue.drop k).map (·.seq)
    have hnodup := h.runs.nodup (Nat.le_succ_of_le h.short)
    rw [← List.take_append_drop k x.rtxQueue, List.map_append, List.nodup_append] at hnodup
    obtain ⟨-, -, hdisjoint⟩ := hnodup
    have hsplit := h.mask n
    rw [← List.take_append_drop k x.rtxQueue, List.map_append, List.mem_append] at hsplit
    rw [getLsbD_foldl_clear, hsplit]
    constructor
    · rintro ⟨hmem | hmem, hnot⟩
      · obtain ⟨E, hE, hseq⟩ := List.mem_map.mp hmem
        exact absurd hseq (hnot E hE)
      · exact hmem
    · exact fun hmem => ⟨.inr hmem, fun E hE => hdisjoint _ (List.mem_map_of_mem hE) n hmem⟩
  stored := fun E hE => h.stored E (List.mem_of_mem_drop hE)

/-- Sending from a legal record, its payload taken from the pending list or from the host. -/
theorem Machine.EpInv.sends {cfg : Config} {e : Byte} {x : Endpoint} (h : EpInv cfg e x) (hopen : x.state = .opened)
    (hroom : popcount x.outstanding < x.window.toNat) (ack : Seq) {P : Bytes} (hP : P.length ≤ cfg.mtu) (s : State) :
    EpInv cfg e (x.sends (frameBytes e (ctrlI x.nextTx ack true) P) s) := by
  have hcount : x.rtxQueue.length < x.window.toNat := h.outstanding_count ▸ hroom
  refine h.of_store hopen (h.store.sends (Nat.lt_of_lt_of_le hcount (Nat.le_of_lt_succ x.window.isLt)) ack hP s) ?_ ?_
    nofun h.rto_range h.retry_range ⟨rfl, rfl, rfl, rfl⟩
  · change (x.rtxQueue ++ [_]).length ≤ x.window.toNat
    rw [List.length_append, List.length_singleton]
    exact hcount
  · have hstored : (x.sends (frameBytes e (ctrlI x.nextTx ack true) P) s).rtxQueue ≠ [] :=
      List.append_ne_nil_of_right_ne_nil _ (List.cons_ne_nil _ _)
    refine ⟨fun _ => hstored, fun _ => ?_⟩
    change (if x.rtxTimer.armed = true then x.rtxTimer else s.armedTimer x.rto).armed = true
    split
    case isTrue hrun => exact hrun
    case isFalse => rfl

/-- The ack of the `k` oldest frames of a legal record. -/
theorem Machine.EpInv.releases {s : State} {e : Byte} {x : Endpoint} (h : EpInv s.cfg e x) (hvalid : s.cfg.Valid)
    (hopen : x.state = .opened) {k : Nat} (hk : k ≤ x.rtxQueue.length) : EpInv s.cfg e (x.releases k s) := by
  refine h.of_store hopen (h.store.releases hk s) ?_ ?_ h.ack_armed ⟨Nat.le_refl _, hvalid.rtoInit_le⟩ (Nat.zero_le _)
    ⟨rfl, rfl, rfl, rfl⟩
  · change (x.rtxQueue.drop k).length ≤ x.window.toNat
    exact Nat.le_trans (List.length_drop ▸ Nat.sub_le _ _) h.within_window
  · change (if x.rtxQueue.length = k then Timer.off else s.armedTimer s.cfg.rtoInit).armed = true ↔
      x.rtxQueue.drop k ≠ []
    rw [ne_eq, List.drop_eq_nil_iff]
    split
    case isTrue hall => exact ⟨nofun, fun hne => absurd (Nat.le_of_eq hall) hne⟩
    case isFalse hall => exact ⟨fun _ hle => hall (Nat.le_antisymm hle hk), fun _ => rfl⟩

/-! ## Records started afresh (45_endpoint_cmds.md R300 to R310; 43_frame_dispatch.md R223) -/

/-- A flushed record is legal, whatever its state, if outside Open it awaits and holds nothing. -/
theorem epInv_flushed {cfg : Config} (hvalid : cfg.Valid) (e : Byte) (x : Endpoint) {st : EpState} {wait enc : Bool}
    {w : BitVec 3} {q : List Bytes} (hw : 1 ≤ w.toNat) (hwait : wait = true → st = .opened)
    (hopen : st ≠ .opened → q = []) (hq : q.length ≤ cfg.rxQueueCap ∧ ∀ P ∈ q, P.length ≤ cfg.mtu) :
    EpInv cfg e { x.flushed cfg.rtoInit with
      state := st, awaitingUack := wait, window := w, encrypted := enc, rxQueue := q } where
  window_pos := hw
  outstanding_count := by
    change popcount 0 = 0
    decide
  within_window := Nat.zero_le _
  consecutive := nofun
  next_after_last := rfl
  mask_exact := fun n => by
    change (0#8).getLsbD n.toNat = true ↔ _
    rw [BitVec.getLsbD_zero]
    exact ⟨nofun, fun ⟨_, hE, _⟩ => absurd hE List.not_mem_nil⟩
  stored := nofun
  rtx_armed := ⟨nofun, fun hne => absurd rfl hne⟩
  ack_armed := nofun
  idle_unless_open := fun _ => ⟨rfl, rfl, rfl, rfl, rfl, rfl⟩
  awaiting_open := hwait
  rxQueue_open := hopen
  seq_open := fun _ => ⟨rfl, rfl⟩
  rto_range := ⟨Nat.le_refl _, hvalid.rtoInit_le⟩
  retry_range := Nat.zero_le _
  pending_range := ⟨Nat.zero_le _, nofun⟩
  rxQueue_range := hq

theorem Machine.EpInv.dropped {cfg : Config} {e : Byte} {x : Endpoint} (h : EpInv cfg e x) (hvalid : cfg.Valid)
    (st : EpState) :
    EpInv cfg e (x.dropped cfg.rtoInit st) :=
  epInv_flushed hvalid e x h.window_pos nofun (fun _ => rfl) ⟨Nat.zero_le _, nofun⟩

theorem Machine.EpInv.linkReset {cfg : Config} {e : Byte} {x : Endpoint} (h : EpInv cfg e x) (hvalid : cfg.Valid) :
    EpInv cfg e (x.linkReset cfg.rtoInit) := by
  unfold Endpoint.linkReset
  split
  · exact h
  · exact h.dropped hvalid .closed

/-- A record that is not Open may take another such state. -/
theorem Machine.EpInv.setState {cfg : Config} {e : Byte} {x : Endpoint} (h : EpInv cfg e x) (hx : x.state ≠ .opened)
    (st : EpState) : EpInv cfg e { x with state := st } :=
  { h with
    idle_unless_open := fun _ => h.idle_unless_open hx
    awaiting_open := fun hwait => absurd (h.awaiting_open hwait) hx
    rxQueue_open := fun _ => h.rxQueue_open hx
    seq_open := fun _ => h.seq_open hx }

theorem Machine.EpInv.peerReset {cfg : Config} {e : Byte} {x : Endpoint} (h : EpInv cfg e x) (hvalid : cfg.Valid) :
    EpInv cfg e (x.peerReset cfg.rtoInit) := by
  unfold Endpoint.peerReset
  split
  case isTrue hopen =>
    exact epInv_flushed hvalid e x h.window_pos nofun (fun hne => absurd hopen hne) h.rxQueue_range
  case isFalse hopen =>
    split
    case isTrue =>
      exact epInv_flushed hvalid e x h.window_pos (fun hwait => absurd (h.awaiting_open hwait) hopen)
        (fun _ => h.rxQueue_open hopen) h.rxQueue_range
    case isFalse => exact h

/-! ## Every step (R55) -/

/-- The frame instruction's payload is within MTU. -/
def frameFits (i : Instr) (mtu : Nat) : Prop := ∀ k f, instrFrame i = some (k, f) → f.payload.length ≤ mtu

theorem length_append_le {α : Type} {l : List α} {a : α} {n : Nat} (h : l.length < n) : (l ++ [a]).length ≤ n := by
  rw [List.length_append, List.length_singleton]
  exact h

/-- One more payload of at most MTU bytes in a list with room. -/
theorem payloads_append {l : List Bytes} {P : Bytes} {cap mtu : Nat} (h : l.length < cap)
    (hl : ∀ Q ∈ l, Q.length ≤ mtu) (hP : P.length ≤ mtu) :
    (l ++ [P]).length ≤ cap ∧ ∀ Q ∈ l ++ [P], Q.length ≤ mtu :=
  ⟨length_append_le h, List.forall_mem_append.mpr ⟨hl, List.forall_mem_singleton.mpr hP⟩⟩

/-- The legal record of a payload queue that lost its first entry. -/
theorem payloads_tail {l rest : List Bytes} {P : Bytes} {cap mtu : Nat} (hl : l = P :: rest)
    (h : l.length ≤ cap ∧ ∀ Q ∈ l, Q.length ≤ mtu) : rest.length ≤ cap ∧ ∀ Q ∈ rest, Q.length ≤ mtu := by
  obtain ⟨hlen, hall⟩ := h
  subst hl
  exact ⟨Nat.le_of_succ_le hlen, (List.forall_mem_cons.mp hall).2⟩

/-- Every step of the rules leaves a legal record. -/
theorem Touch.keeps_epInv {i : Instr} {s : State} {e : Byte} {y : Endpoint} {q : List Bytes} {o : List Event} {n : Nat}
    (htouch : Touch i s e y q o n) (hvalid : s.cfg.Valid) (h : EpInv s.cfg e (s.ep e)) (hfits : frameFits i s.cfg.mtu) :
    EpInv s.cfg e y := by
  cases htouch with
  | tells | emits => exact h
  | sends P rest hpending hsend =>
    obtain ⟨hopen, -, hroom, -⟩ := (canSend_eq_true_iff s e).mp hsend
    obtain ⟨hP, hrest⟩ : P.length ≤ s.cfg.mtu ∧ rest.length ≤ s.cfg.pendingCap ∧ ∀ Q ∈ rest, Q.length ≤ s.cfg.mtu := by
      rcases hpending with hpending | ⟨hP, rfl⟩
      · exact ⟨h.pending_range.2 P (hpending ▸ List.mem_cons_self), payloads_tail hpending h.pending_range⟩
      · exact ⟨hP, h.pending_range⟩
    have hleft : EpInv s.cfg e { s.ep e with pending := rest } :=
      { h with
        idle_unless_open := fun hne => absurd hopen hne
        pending_range := hrest }
    exact hleft.sends hopen hroom (s.ep e).expectedRx hP s
  | waits P hopen hP hroom =>
    exact { h with
      idle_unless_open := fun hne => absurd hopen hne
      pending_range := payloads_append hroom h.pending_range.2 hP }
  | releases k hopen hk => exact h.releases hvalid hopen hk
  | acks =>
    exact { h with
      ack_armed := nofun
      idle_unless_open := fun hne => by
        obtain ⟨hq, hp, ho, hr, -, -⟩ := h.idle_unless_open hne
        exact ⟨hq, hp, ho, hr, rfl, rfl⟩ }
  | repeats hopen hstored =>
    exact { h with
      rtx_armed := ⟨fun _ => hstored, fun _ => rfl⟩
      idle_unless_open := fun hne => absurd hopen hne }
  | accepts f n A pf hi hf hopen hroom =>
    have hP : f.payload.length ≤ s.cfg.mtu := hfits .i f (by rw [hi]; rfl)
    exact { h with
      ack_armed := fun _ => rfl
      idle_unless_open := fun hne => absurd hopen hne
      rxQueue_open := fun hne => absurd hopen hne
      seq_open := fun hne => absurd hopen hne
      rxQueue_range := payloads_append hroom h.rxQueue_range.2 hP }
  | acceptsUI f hi he hopen hroom =>
    have hP : f.payload.length ≤ s.cfg.mtu := hfits .ui f (by rw [hi]; rfl)
    exact { h with
      rxQueue_open := fun hne => absurd hopen hne
      rxQueue_range := payloads_append hroom h.rxQueue_range.2 hP }
  | peerResets => exact h.peerReset hvalid
  | opensUp => exact { h with awaiting_open := nofun }
  | closes f hi hf hP hclosing => exact h.setState (by rw [hclosing]; nofun) .closed
  | opens w enc hi hopen =>
    obtain ⟨-, hw, -⟩ := openRefusal_none hopen
    exact epInv_flushed hvalid e (s.ep e) (by bv_omega) (fun _ => rfl) (fun hne => absurd rfl hne)
      ⟨Nat.zero_le _, nofun⟩
  | startsClosing => exact h.dropped hvalid .closing
  | leavesFailed hi hst =>
    refine h.setState ?_ .closed
    rcases hst with hst | ⟨x, hst, -⟩
    · rw [hst]
      nofun
    · rw [hst]
      nofun
  | fails cause => exact h.dropped hvalid _
  | pops P rest hi hq =>
    exact { h with
      rxQueue_open := fun hne => absurd ((h.rxQueue_open hne).symm.trans hq) nofun
      rxQueue_range := payloads_tail hq h.rxQueue_range }
  | expires hi harmed hleft =>
    have hopen : ¬(s.ep e).state ≠ .opened := fun hne => by
      obtain ⟨-, -, -, hr, -⟩ := h.idle_unless_open hne
      exact absurd (harmed.symm.trans hr) nofun
    obtain ⟨hlow, -⟩ := h.rto_range
    exact { h with
      rtx_armed := ⟨fun _ => h.rtx_armed.mp harmed, fun _ => rfl⟩
      idle_unless_open := fun hne => absurd hne hopen
      rto_range := ⟨Nat.le_min.mpr ⟨by omega, hvalid.rtoInit_le⟩, Nat.min_le_right _ _⟩
      retry_range := Nat.le_succ_of_le hleft }
  | givesUp => exact h.dropped hvalid _
  | lapses =>
    exact { h with
      ack_armed := nofun
      idle_unless_open := fun hne => by
        obtain ⟨hq, hp, ho, hr, -, hack⟩ := h.idle_unless_open hne
        exact ⟨hq, hp, ho, hr, rfl, hack⟩ }

end Sys2Proof
end

section
/-! SUPPORT. The legal states of the block under every step (10_state.md R55; 60_exceptions.md R350). -/

namespace Sys2Proof

open Machine

/-! ## The frames that a step queues (41_framer_tx.md R160, R161) -/

theorem kind_ctrlI (n A : Seq) (pf : Bool) : kind (ctrlI n A pf) = .i := by
  revert n A pf
  decide

theorem Machine.SendableFrame.length_pos {mtu : Nat} {F : Bytes} (h : SendableFrame mtu F) : 0 < F.length := by
  obtain ⟨a, c, P, -, -, rfl⟩ := h
  rw [frameBytes_length]
  split <;> omega

theorem Machine.StoredIFrame.sendable {mtu : Nat} {e : Byte} {E : RtxEntry} (h : StoredIFrame mtu e E) :
    SendableFrame mtu E.frame := by
  obtain ⟨ack, P, hP, hF⟩ := h
  exact ⟨e, _, P, by rw [kind_ctrlI]; nofun, hP, hF⟩

/-- Every step of the rules queues sendable frames. -/
theorem Touch.sendable {i : Instr} {s : State} {e : Byte} {y : Endpoint} {q : List Bytes} {o : List Event} {n : Nat}
    (htouch : Touch i s e y q o n) (h : EpInv s.cfg e (s.ep e)) : ∀ F ∈ q, SendableFrame s.cfg.mtu F := by
  cases htouch with
  | emits c P hknown hnotI hP => exact List.forall_mem_singleton.mpr ⟨e, c, P, hknown, hP, rfl⟩
  | sends P rest hpending hsend =>
    have hP : P.length ≤ s.cfg.mtu := by
      rcases hpending with hpending | ⟨hP, -⟩
      · exact h.pending_range.2 P (hpending ▸ List.mem_cons_self)
      · exact hP
    exact List.forall_mem_singleton.mpr ⟨e, _, P, by rw [kind_ctrlI]; nofun, hP, rfl⟩
  | repeats =>
    intro F hF
    obtain ⟨E, hE, rfl⟩ := List.mem_map.mp hF
    exact (h.stored E hE).sendable
  | expires =>
    intro F hF
    obtain ⟨E, hE, rfl⟩ := List.mem_map.mp hF
    exact (h.stored E (List.mem_of_mem_take hE)).sendable
  | tells | waits | releases | acks | accepts | acceptsUI | peerResets | opensUp | closes | opens | startsClosing
  | leavesFailed | fails | pops | givesUp | lapses => nofun

/-- Endpoint 15 stays Closed: no rule opens or fails it, and nothing else happens to a closed one. -/
theorem StateChange.ep15 {i : Instr} {x : Endpoint} {st : EpState} {cfg : Config} (h : StateChange i 15 x st)
    (hx : EpInv cfg 15 x) (hclosed : x.state = .closed) : st = .closed := by
  cases h with
  | none => exact hclosed
  | closed | freed => rfl
  | opened w enc hi hep | failed cause hi hep => exact absurd rfl hep
  | closing hi hopen => exact absurd (hclosed.symm.trans hopen) nofun
  | gaveUp hi harmed =>
    obtain ⟨-, -, -, hr, -⟩ := hx.idle_unless_open (by rw [hclosed]; nofun)
    exact absurd (harmed.symm.trans hr) nofun

/-! ## The parts of the state -/

theorem Machine.TxInv.append {s : State} (h : TxInv s) {q : List Bytes} (hq : ∀ F ∈ q, SendableFrame s.cfg.mtu F)
    {t : State} (hcfg : t.cfg = s.cfg) (hqueue : t.txQueue = s.txQueue ++ q) (hpos : t.txPos = s.txPos) : TxInv t where
  sendable := by
    rw [hcfg, hqueue]
    exact List.forall_mem_append.mpr ⟨h.sendable, hq⟩
  idle := fun hnone => by
    rw [hqueue, List.append_eq_nil_iff] at hnone
    rw [hpos, h.idle hnone.1]
  cursor := fun F hF => by
    rw [hqueue, List.head?_append] at hF
    rw [hpos]
    cases hhead : s.txQueue.head? with
    | some F' =>
      rw [hhead] at hF
      obtain rfl := Option.some.inj hF
      exact h.cursor F' hhead
    | none =>
      rw [hhead] at hF
      rw [h.idle (List.head?_eq_none_iff.mp hhead)]
      exact (hq F (List.mem_of_mem_head? hF)).length_pos

/-- The trim of a link reset keeps the frame that is partly sent. -/
theorem Machine.TxInv.trimmed {s : State} (h : TxInv s) {t : State} (hcfg : t.cfg = s.cfg)
    (hqueue : t.txQueue = if 0 < s.txPos then s.txQueue.take 1 else []) (hpos : t.txPos = s.txPos) : TxInv t where
  sendable := by
    rw [hcfg, hqueue]
    split
    · exact fun F hF => h.sendable F (List.mem_of_mem_take hF)
    · nofun
  idle := fun hnone => by
    rw [hqueue] at hnone
    split at hnone
    case isTrue hsent =>
      have hempty : s.txQueue = [] := (List.take_eq_nil_iff.mp hnone).resolve_left Nat.one_ne_zero
      rw [hpos, h.idle hempty]
    case isFalse hidle => rw [hpos, Nat.eq_zero_of_not_pos hidle]
  cursor := fun F hF => by
    rw [hqueue] at hF
    split at hF
    case isTrue =>
      rw [List.head?_take, if_neg Nat.one_ne_zero] at hF
      rw [hpos]
      exact h.cursor F hF
    case isFalse => exact absurd hF nofun

/-- A byte leaves at the TX port. -/
theorem Machine.TxInv.pulled {s : State} (h : TxInv s) {F : Bytes} {rest : List Bytes} (hq : s.txQueue = F :: rest)
    (b : Byte) :
    TxInv (if s.txPos + 1 = F.length then (s.out (.txByte b)).setTx rest 0
      else (s.out (.txByte b)).setTx s.txQueue (s.txPos + 1)) := by
  have hcursor := h.cursor F (by rw [hq, List.head?_cons])
  split
  case isTrue =>
    have hrest : ∀ G ∈ rest, SendableFrame s.cfg.mtu G := fun G hG =>
      h.sendable G (hq ▸ List.mem_cons_of_mem F hG)
    exact ⟨hrest, fun _ => rfl, fun G hG => (hrest G (List.mem_of_mem_head? hG)).length_pos⟩
  case isFalse hmore =>
    refine ⟨h.sendable, fun hnone => absurd (hq.symm.trans hnone) nofun, fun G hG => ?_⟩
    have hG' : s.txQueue.head? = some G := hG
    rw [hq] at hG'
    obtain rfl := Option.some.inj hG'
    change s.txPos + 1 < F.length
    omega

theorem Machine.TxInv.of_same {s t : State} (h : TxInv s) (hcfg : t.cfg = s.cfg) (hqueue : t.txQueue = s.txQueue)
    (hpos : t.txPos = s.txPos) : TxInv t :=
  h.append (q := []) nofun hcfg (hqueue.trans (List.append_nil _).symm) hpos

theorem Machine.ViolInv.of_same {s t : State} (h : ViolInv s) (hcfg : t.cfg = s.cfg) (hhist : t.violHist = s.violHist)
    (hnow : s.now ≤ t.now) : ViolInv t where
  short := hcfg ▸ hhist ▸ h.short
  past := fun u hu => Nat.le_trans (h.past u (hhist ▸ hu)) hnow
  ordered := hhist ▸ h.ordered

theorem Machine.ViolInv.stamped {s : State} (h : ViolInv s) : ViolInv (s.setViol (violHistAfter s)) := by
  have hmem : ∀ t ∈ violHistAfter s, t ∈ s.violHist ++ [s.now] := by
    rw [violHistAfter_eq_drop]
    exact fun t => List.mem_of_mem_drop
  refine ⟨?_, fun t ht => ?_, ?_⟩
  · change (violHistAfter s).length ≤ s.cfg.violCount
    rw [length_violHistAfter]
    exact Nat.min_le_left _ _
  · rcases List.mem_append.mp (hmem t ht) with hold | hnew
    · exact h.past t hold
    · exact Nat.le_of_eq (List.mem_singleton.mp hnew)
  · change (violHistAfter s).Pairwise (· ≤ ·)
    rw [violHistAfter_eq_drop]
    refine List.Pairwise.drop (List.pairwise_append.mpr ⟨h.ordered, List.pairwise_singleton _ _, fun t ht u hu => ?_⟩)
    rw [List.mem_singleton.mp hu]
    exact h.past t ht

/-! ## The whole state -/

/-- A legal state with its records kept and its other parts rewritten. -/
theorem Machine.State.Inv.of_parts {s t : State} (h : s.Inv) (hcfg : t.cfg = s.cfg) (hep : ∀ e, t.ep e = s.ep e)
    (hrx : RxInv t) (htx : TxInv t) (hviol : ViolInv t) : t.Inv where
  cfg := hcfg ▸ h.cfg
  ep := fun e => by
    rw [hcfg, hep]
    exact h.ep e
  ep15 := by
    rw [hep]
    exact h.ep15
  rx := hrx
  tx := htx
  viol := hviol

theorem Touch.keeps_inv {i : Instr} {s : State} {e : Byte} {y : Endpoint} {q : List Bytes} {o : List Event} {n : Nat}
    (htouch : Touch i s e y q o n) (h : s.Inv) (hfits : frameFits i s.cfg.mtu) : (s.touched e y q o n).Inv where
  cfg := h.cfg
  ep := fun a => by
    rw [touched_ep]
    split
    case isTrue ha => exact ha ▸ htouch.keeps_epInv h.cfg (h.ep e) hfits
    case isFalse => exact h.ep a
  ep15 := by
    rw [touched_ep]
    split
    case isTrue he =>
      subst he
      exact htouch.stateChange.ep15 (h.ep 15) h.ep15
    case isFalse => exact h.ep15
  rx := h.rx
  tx := h.tx.append (htouch.sendable (h.ep e)) rfl rfl rfl
  viol := h.viol.of_same rfl rfl (Nat.le_refl _)

theorem linkResetEndpoints_keeps_inv (first : Nat) (c : ResetCause) {s : State} (h : s.Inv) :
    (linkResetEndpoints first c s).Inv := by
  have hep : ∀ a, EpInv s.cfg a ((linkResetEndpoints first c s).ep a) := fun a => by
    rw [linkResetEndpoints_ep]
    split
    · exact (h.ep a).linkReset h.cfg
    · exact h.ep a
  have hclosed : ((linkResetEndpoints first c s).ep 15).state = .closed := by
    rw [linkResetEndpoints_ep]
    split
    · exact linkReset_state _ _
    · exact h.ep15
  rw [linkResetEndpoints_eq] at hep hclosed ⊢
  exact ⟨h.cfg, hep, hclosed, h.rx, h.tx.trimmed rfl rfl rfl, ⟨Nat.zero_le _, nofun, List.Pairwise.nil⟩⟩

/-- Time passes. -/
theorem setNow_keeps_inv {s : State} (h : s.Inv) : (s.setNow (s.now + 1)).Inv :=
  h.of_parts rfl (fun _ => rfl) h.rx (h.tx.of_same rfl rfl rfl) (h.viol.of_same rfl rfl (Nat.le_succ _))

/-- In whose name the steps of a command are taken: its frame, if any, comes from a legal deframer state. -/
theorem stepsAs_frameFits {i j : Instr} {s : State} (hj : stepsAs i s j) (hi : frameFits i s.cfg.mtu) (hrx : RxInv s) :
    frameFits j s.cfg.mtu := by
  rcases hj with rfl | ⟨b, k, f, -, hf, hlegal⟩
  · exact hi
  · intro k' f' hf'
    obtain ⟨-, rfl⟩ := Prod.mk.inj (Option.some.inj (hf.symm.trans hf'))
    exact (hlegal hrx).1

theorem kept_inv {i : Instr} {s : State} (hi : frameFits i s.cfg.mtu) (hrx : RxInv s) :
    Kept i s fun u => u.Inv ∧ u.cfg = s.cfg where
  touch := fun j u e y q o n hj ⟨hu, hcfg⟩ htouch =>
    ⟨htouch.keeps_inv hu (hcfg ▸ stepsAs_frameFits hj hi hrx), hcfg⟩
  reset := fun first c u ⟨hu, hcfg⟩ =>
    ⟨linkResetEndpoints_keeps_inv first c hu, (linkResetEndpoints_cfg first c u).trans hcfg⟩
  viol := fun u ⟨hu, hcfg⟩ =>
    ⟨hu.of_parts rfl (fun _ => rfl) hu.rx (hu.tx.of_same rfl rfl rfl) hu.viol.stamped, hcfg⟩
  session := fun v _ ⟨hs, hcfg⟩ =>
    ⟨hs.of_parts rfl (fun _ => rfl) hs.rx (hs.tx.of_same rfl rfl rfl) (hs.viol.of_same rfl rfl (Nat.le_refl _)), hcfg⟩
  tick := fun _ ⟨hs, hcfg⟩ => ⟨setNow_keeps_inv hs, hcfg⟩
  pull := fun _ ⟨hs, _⟩ F rest b hq _ => by
    have htx := hs.tx.pulled hq b
    split at htx
    case isTrue hlast =>
      rw [if_pos hlast]
      exact ⟨hs.of_parts rfl (fun _ => rfl) hs.rx htx (hs.viol.of_same rfl rfl (Nat.le_refl _)), rfl⟩
    case isFalse hmore =>
      rw [if_neg hmore]
      exact ⟨hs.of_parts rfl (fun _ => rfl) hs.rx htx (hs.viol.of_same rfl rfl (Nat.le_refl _)), rfl⟩
  move := fun b _ ⟨hs, hcfg⟩ phase buf need o hmove =>
    ⟨hs.of_parts rfl (fun _ => rfl) (hmove hs.rx) (hs.tx.of_same rfl rfl rfl)
      (hs.viol.of_same rfl rfl (Nat.le_refl _)), hcfg⟩

theorem setInput_inv {s : State} (h : s.Inv) (rest : List InputEvent) : (s.setInput rest).Inv :=
  h.of_parts rfl (fun _ => rfl) h.rx (h.tx.of_same rfl rfl rfl) (h.viol.of_same rfl rfl (Nat.le_refl _))

theorem out_inv {s : State} (h : s.Inv) (ev : Event) : (s.out ev).Inv :=
  h.of_parts rfl (fun _ => rfl) h.rx (h.tx.of_same rfl rfl rfl) (h.viol.of_same rfl rfl (Nat.le_refl _))

/-- Settles O52: a step idles, refuses its word, or runs a command, whose steps all keep the invariants. -/
theorem everyStepKeepsInvariants : Obligations.EveryStepKeepsInvariants := by
  unfold Obligations.EveryStepKeepsInvariants
  intro s t hs hstep
  rcases step_cases s with h | ⟨rest, b, h⟩ | ⟨rest, i, h, hframe⟩
  · obtain rfl := Host.Outcome.next.inj (hstep.symm.trans h)
    exact hs
  · obtain rfl := Host.Outcome.next.inj (hstep.symm.trans h)
    exact out_inv (setInput_inv hs rest) _
  · have hfits : frameFits i (s.setInput rest).cfg.mtu := fun k f hf => absurd (hframe.symm.trans hf) nofun
    exact ((kept_inv hfits (setInput_inv hs rest).rx).exec (h.symm.trans hstep) ⟨setInput_inv hs rest, rfl⟩).1

/-! ## Nothing stops the block (60_exceptions.md R350) -/

theorem execTxPull_goes_on {s : State} (h : TxInv s) : ∃ t, execTxPull s = .next t := by
  unfold execTxPull
  split
  case h_1 => exact ⟨_, rfl⟩
  case h_2 F rest hq =>
    rw [List.getElem?_eq_getElem (h.cursor F (by rw [hq, List.head?_cons]))]
    exact ⟨_, rfl⟩

/-- From a legal state every command answers a next state. -/
theorem exec_goes_on {i : Instr} {s : State} (hrx : RxInv s) (htx : TxInv s) : ∃ t, exec i s = .next t := by
  cases i with
  | rxByte b => exact execRxByte_goes_on hrx b
  | txPull => exact execTxPull_goes_on htx
  | iFrame | rr | rej | ui | upf | uack | ureset | openEp | closeEp | write | uiSend | rxPop | status | fail | linkReset
  | secState | tick => exact ⟨_, rfl⟩

/-- Settles O53: only RX_BYTE and TX_PULL have conditions, which the legal deframer and transmit states meet. -/
theorem nothingStopsTheBlock : Obligations.NothingStopsTheBlock := by
  unfold Obligations.NothingStopsTheBlock
  intro s hs
  rcases step_cases s with h | ⟨rest, b, h⟩ | ⟨rest, i, h, -⟩
  · exact ⟨s, h⟩
  · exact ⟨_, h⟩
  · obtain ⟨t, ht⟩ := exec_goes_on (i := i) (setInput_inv hs rest).rx (setInput_inv hs rest).tx
    exact ⟨t, h.trans ht⟩

/-! ## The reset state (70_reset_and_hazards.md R380, R381) -/

theorem resetWith_inv {cfg : Config} (h : cfg.Valid) : (State.resetWith cfg).Inv where
  cfg := h
  ep := fun e => by
    rw [State.resetWith_ep]
    exact epInv_flushed h e (Endpoint.reset cfg.rtoInit) (Nat.le_refl 1) nofun (fun _ => rfl) ⟨Nat.zero_le _, nofun⟩
  ep15 := by rw [State.resetWith_ep]; rfl
  rx := ⟨rfl, rfl⟩
  tx := ⟨nofun, fun _ => rfl, nofun⟩
  viol := ⟨Nat.zero_le _, nofun, List.Pairwise.nil⟩

theorem implementation_valid : Config.implementation.Valid where
  mtu_le := by decide
  rtoInit_pos := by decide
  rtoInit_le := by decide
  ackDelay_pos := by decide
  violCount_pos := by decide
  violWindow_pos := by decide
  rxQueueCap_pos := Nat.succ_pos _

/-- Settles O12: every record is a flushed one, and nothing is queued, received or stamped. -/
theorem resetIsLegal : Obligations.ResetIsLegal := by
  unfold Obligations.ResetIsLegal
  exact ⟨resetWith_inv implementation_valid, rfl, rfl, fun _ => resetWith_inv⟩

end Sys2Proof
end

section
/-! SUPPORT. The transitions of an endpoint's state: those that the rules make, and the link reset
(45_endpoint_cmds.md R316). -/

namespace Sys2Proof

open Machine

/-! ## The transitions that the rules make -/

/-- A transition of endpoint `e` from one state to another that a rule of instruction `i` makes. -/
inductive Moves (i : Instr) (e : Byte) (st : EpState) : EpState → Prop
  | closed (f : RxFrame) : i = .uack f ∨ i = .ureset f → f.addr = e → f.payload = [] → st = .closing →
      Moves i e st .closed
  | freed : i = .closeEp e → (st = .connectionLost ∨ ∃ k, st = .error k ∧ k ≠ .securityIncident) → Moves i e st .closed
  | opened (w : BitVec 3) (enc : Bool) : i = .openEp e w enc → st ≠ .closing → st ≠ .error .securityIncident →
      Moves i e st .opened
  | closing : i = .closeEp e → st = .opened → Moves i e st .closing
  | failed (cause : FailCause) : i = .fail e cause → ¬(st = .error .securityIncident ∧ cause ≠ .securityIncident) →
      Moves i e st (.error (errorOfCause cause))
  | gaveUp : i = .tick → st = .opened → Moves i e st (.error .faultNoAck)

/-- A step of a rule makes one of them, or none. An armed rtx timer says that a legal record is Open. -/
theorem StateChange.moves {i : Instr} {e : Byte} {x : Endpoint} {st : EpState} (h : StateChange i e x st)
    (hx : i = .tick → ∃ cfg, EpInv cfg e x) : st = x.state ∨ Moves i e x.state st := by
  cases h with
  | none => exact .inl rfl
  | closed f hi hf hP hst => exact .inr (.closed f hi hf hP hst)
  | freed hi hst => exact .inr (.freed hi hst)
  | opened w enc hi _ hclosing hsticky => exact .inr (.opened w enc hi hclosing hsticky)
  | closing hi hst => exact .inr (.closing hi hst)
  | failed cause hi _ hst => exact .inr (.failed cause hi hst)
  | gaveUp hi harmed =>
    obtain ⟨cfg, hinv⟩ := hx hi
    refine .inr (.gaveUp hi (Decidable.not_not.mp fun hne => ?_))
    obtain ⟨-, -, -, hr, -⟩ := hinv.idle_unless_open hne
    exact absurd (harmed.symm.trans hr) nofun

/-- The state that the rules of an instruction lead to, where they change it. -/
def leadsTo (i : Instr) (st : EpState) : EpState :=
  match i with
  | .uack _ | .ureset _ => .closed
  | .openEp _ _ _ => .opened
  | .closeEp _ => if st = .opened ∨ st = .closing then .closing else .closed
  | .fail _ cause => .error (errorOfCause cause)
  | .tick => .error .faultNoAck
  | .iFrame _ _ _ _ | .rr _ _ _ | .rej _ _ _ | .ui _ | .upf _ | .write _ _ | .uiSend _ _ | .rxPop _ | .status _
  | .linkReset | .secState _ | .rxByte _ | .txPull => st

theorem Moves.eq_leadsTo {i : Instr} {e : Byte} {st st' : EpState} (h : Moves i e st st') : st' = leadsTo i st := by
  cases h with
  | closed f hi =>
    rcases hi with rfl | rfl
    · rfl
    · rfl
  | freed hi hst =>
    subst hi
    refine (if_neg ?_).symm
    rcases hst with rfl | ⟨k, rfl, -⟩
    · nofun
    · nofun
  | closing hi hst =>
    subst hi
    exact (if_pos (.inl hst)).symm
  | opened _ _ hi | failed _ hi | gaveUp hi =>
    subst hi
    rfl

theorem leadsTo_leadsTo (i : Instr) (st : EpState) : leadsTo i (leadsTo i st) = leadsTo i st := by
  cases i with
  | closeEp e =>
    by_cases h : st = .opened ∨ st = .closing
    · simp only [leadsTo, if_pos h, or_true, if_true]
    · simp only [leadsTo, if_neg h, reduceCtorEq, or_self, if_false]
  | iFrame | rr | rej | ui | upf | uack | ureset | openEp | write | uiSend | rxPop | status | fail | linkReset
  | secState | rxByte | txPull | tick => rfl

/-- A second step of the same instruction makes no other state. -/
theorem Moves.again {i : Instr} {e : Byte} {a b c : EpState} (h1 : Moves i e a b) (h2 : Moves i e b c) : c = b := by
  rw [h2.eq_leadsTo, h1.eq_leadsTo, leadsTo_leadsTo]

/-- A run of steps makes one of the transitions, or none. -/
theorem AnyRun.moves {i : Instr} {s t : State} (h : AnyRun i s t) (hs : i = .tick → s.Inv) (e : Byte) :
    (t.ep e).state = (s.ep e).state ∨ Moves i e (s.ep e).state (t.ep e).state := by
  refine (h.keeps (p := fun u => (i = .tick → u.Inv) ∧
    ((u.ep e).state = (s.ep e).state ∨ Moves i e (s.ep e).state (u.ep e).state)) ⟨hs, .inl rfl⟩ ?_).2
  rintro u a y q o n ⟨hinv, hmoved⟩ htouch
  refine ⟨fun hi => htouch.keeps_inv (hinv hi) fun k f hf => ?_, ?_⟩
  · subst hi
    exact absurd hf nofun
  rw [touched_ep]
  split
  case isFalse => exact hmoved
  case isTrue hea =>
    subst hea
    rcases htouch.stateChange.moves fun hi => ⟨_, (hinv hi).ep e⟩ with hsame | hmore
    · rw [hsame]
      exact hmoved
    · rcases hmoved with hbefore | hbefore
      · exact .inr (hbefore ▸ hmore)
      · rw [hbefore.again hmore]
        exact .inr hbefore

/-! ## The link reset -/

/-- The endpoint has become Closed by a link reset since `s`, endpoint 0 by one of all endpoints. -/
def closedByReset (s t : State) (e : Byte) : Prop :=
  (t.ep e).state = .closed ∧
    ∃ c, .linkReset c ∈ t.output.drop s.output.length ∧ (e ≠ 0 ∨ c = .host ∨ c = .violations)

theorem closedByReset_of_prefix {s u t : State} {e : Byte} (h : closedByReset s u e)
    (hep : (t.ep e).state = (u.ep e).state) (hpre : u.output <+: t.output) : closedByReset s t e := by
  obtain ⟨hclosed, c, hmem, hc⟩ := h
  exact ⟨hep.trans hclosed, c, mem_drop_of_prefix hpre hmem, hc⟩

/-- A link reset closes the endpoints from `first` on. -/
theorem linkResetEndpoints_closedByReset {first : Nat} {c : ResetCause} {s u : State} {e : Byte}
    (hpre : s.output <+: u.output) (hfirst : first ≤ e.toNat) (hc : e ≠ 0 ∨ c = .host ∨ c = .violations) :
    closedByReset s (linkResetEndpoints first c u) e := by
  refine ⟨?_, c, linkReset_mem_output first c hpre, hc⟩
  rw [linkResetEndpoints_ep, if_pos hfirst, linkReset_state]

/-- What an instruction run as `j` makes of the state of `e`. -/
def lawful (j : Instr) (e : Byte) (s t : State) : Prop :=
  (t.ep e).state = (s.ep e).state ∨ Moves j e (s.ep e).state (t.ep e).state ∨ closedByReset s t e

theorem AnyRun.lawful {i : Instr} {s u t : State} (h : AnyRun i u t) (hs : i = .tick → u.Inv) {e : Byte}
    (hep : u.ep e = s.ep e) : lawful i e s t := by
  have hmoves := h.moves hs e
  rw [hep] at hmoves
  exact hmoves.imp_right .inl

theorem raiseViolation_lawful (j : Instr) (r : ViolReason) {s u : State} {e : Byte} (hpre : s.output <+: u.output)
    (hep : u.ep e = s.ep e) : lawful j e s (raiseViolation r u) := by
  rcases raiseViolation_cases r u with ⟨-, h⟩ | ⟨-, h⟩
  · rw [h]
    exact .inl (congrArg Endpoint.state hep)
  · have hstamped : s.output <+: u.output ++ [.violation r] := hpre.trans (List.prefix_append _ _)
    have hreset := linkResetEndpoints_closedByReset (first := 0) (c := .violations) (s := s) (e := e)
      (u := { u with output := u.output ++ [.violation r], violHist := violHistAfter u }) hstamped (Nat.zero_le _)
      (.inr (.inr rfl))
    rw [← h] at hreset
    exact .inr (.inr hreset)

/-- A link reset of the other endpoints, and steps on endpoint 0 after it. -/
theorem reset_then_run_lawful {i : Instr} {c : ResetCause} {s u t : State} {e : Byte} (hpre : s.output <+: u.output)
    (hep : u.ep e = s.ep e) (hi : i ≠ .tick) (hrun : LocalRun i 0 (linkResetEndpoints 1 c u) t) : lawful i e s t := by
  by_cases he : e = 0
  · subst he
    exact hrun.any.lawful (fun htick => absurd htick hi) ((linkResetEndpoints_ep_zero c u).trans hep)
  · have hpos : 1 ≤ e.toNat := by bv_omega
    exact .inr (.inr (closedByReset_of_prefix (linkResetEndpoints_closedByReset hpre hpos (.inl he))
      (congrArg Endpoint.state (hrun.ep_of_ne he)) hrun.any.output_prefix))

/-- A frame instruction. -/
theorem frame_lawful {j : Instr} {k : FrameKind} {f : RxFrame} (hf : instrFrame j = some (k, f)) {s u t : State}
    {e : Byte} (hpre : s.output <+: u.output) (hep : u.ep e = s.ep e) (h : exec j u = .next t) : lawful j e s t := by
  have hj : j ≠ .tick := by
    rintro rfl
    exact absurd hf nofun
  cases ran_frame hf h with
  | locally _ hrun => exact hrun.any.lawful (fun hi => absurd hi hj) hep
  | violates => exact raiseViolation_lawful j _ hpre hep
  | resets _ _ hrun => exact reset_then_run_lawful hpre hep hj hrun
  | linkReset hi | session hi | ticks hi | pulls hi | byte hi =>
    subst hi
    exact absurd hf nofun

/-- What any instruction makes of the state of an endpoint, RX_BYTE in the name of the frame that it completes. -/
theorem exec_lawful {i : Instr} {s t : State} (hs : s.Inv) (h : exec i s = .next t) (e : Byte) :
    lawful i e s t ∨ ∃ j k f, runsAs i s j ∧ instrFrame j = some (k, f) ∧ lawful j e s t := by
  have hrefl : s.output <+: s.output := List.prefix_refl _
  cases ran_exec h with
  | locally _ hrun => exact .inl (hrun.any.lawful (fun _ => hs) rfl)
  | violates => exact .inl (raiseViolation_lawful i _ hrefl rfl)
  | resets hothers _ hrun =>
    refine .inl (reset_then_run_lawful hrefl rfl ?_ hrun)
    rintro rfl
    exact hothers
  | linkReset =>
    have hclosed := linkResetEndpoints_closedByReset (first := 0) (c := .host) (e := e) hrefl (Nat.zero_le _)
      (.inr (.inl rfl))
    exact .inl (.inr (.inr (closedByReset_of_prefix hclosed (congrArg Endpoint.state (State.out_ep _ _ _))
      (List.prefix_append _ _))))
  | session hi hrun => exact .inl (hrun.lawful (fun htick => absurd (hi.symm.trans htick) nofun) rfl)
  | ticks hi hrun =>
    subst hi
    exact .inl (hrun.lawful (fun _ => setNow_keeps_inv hs) rfl)
  | pulls _ hpull => exact .inl (.inl (congrArg Endpoint.state (execTxPull_ep hpull e)))
  | byte hi hbyte =>
    have hmoved : ∀ o, s.output <+: s.output ++ o := fun o => List.prefix_append _ o
    cases byteRan_execRxByte hbyte with
    | moves => exact .inl (.inl rfl)
    | violates r o => exact .inl (raiseViolation_lawful i r (u := s.rxMoved .hunt [] 0 o) (hmoved o) rfl)
    | runs hf hrun hinv =>
      exact .inr ⟨_, _, _, hi ▸ (hinv hs.rx).2, hf, frame_lawful hf (u := s.rxMoved .hunt [] 0 _) (hmoved _) rfl hrun⟩

/-- Settles O59: a state that changes does so by a step of a rule or by a link reset. -/
theorem lifecycleTransitions : Obligations.LifecycleTransitions := by
  unfold Obligations.LifecycleTransitions
  intro i e s t hs h st st' hne
  obtain ⟨j, hj, hlawful⟩ : ∃ j, (j = i ∨ runsAs i s j ∧ ∃ k f, instrFrame j = some (k, f)) ∧ lawful j e s t := by
    rcases exec_lawful hs h e with hown | ⟨j, k, f, hruns, hf, hown⟩
    · exact ⟨i, .inl rfl, hown⟩
    · exact ⟨j, .inr ⟨hruns, k, f, hf⟩, hown⟩
  have hcommand : instrFrame j = none → i = j := fun hnone => by
    rcases hj with rfl | ⟨-, k, f, hf⟩
    · rfl
    · exact absurd (hnone.symm.trans hf) nofun
  have hruns : runsAs i s j := by
    rcases hj with rfl | ⟨hruns, -⟩
    · exact .inl rfl
    · exact hruns
  rcases hlawful with hsame | hmoves | ⟨hclosed, hreset⟩
  · exact absurd hsame hne
  · generalize hto : (t.ep e).state = after at hmoves
    change st' = after at hto
    rw [hto] at hne ⊢
    cases hmoves with
    | closed f hi hf hP hst =>
      refine .inl ⟨rfl, .inr (.inl ⟨hst, f, hf, hP, ?_⟩)⟩
      rcases hi with rfl | rfl
      · exact .inl hruns
      · exact .inr hruns
    | freed hi hst =>
      subst hi
      exact .inl ⟨rfl, .inr (.inr ⟨hcommand rfl, hst⟩)⟩
    | opened w enc hi hclosing hsticky =>
      subst hi
      exact .inr (.inl ⟨rfl, ⟨w, enc, hcommand rfl⟩, hclosing, hsticky⟩)
    | closing hi hst =>
      subst hi
      exact .inr (.inr (.inl ⟨rfl, hcommand rfl, hst⟩))
    | gaveUp hi hst =>
      subst hi
      exact .inr (.inr (.inr (.inl ⟨rfl, hcommand rfl, hst⟩)))
    | failed cause hi hguard =>
      subst hi
      refine .inr (.inr (.inr (.inr ⟨cause, rfl, hcommand rfl, fun hsticky => ?_⟩)))
      obtain rfl : cause = .securityIncident := Decidable.not_not.mp fun hother => hguard ⟨hsticky, hother⟩
      exact hne hsticky.symm
  · exact .inl ⟨hclosed, .inl hreset⟩

end Sys2Proof
end

section
/-! SUPPORT. The session gate: which frames can be stored and queued while an encrypted endpoint's session is not
Initialized (44_arq.md R256). -/

namespace Sys2Proof

open Machine

/-! ## The stored frames under the steps -/

/-- The session gate is shut for endpoint `e`. -/
def gated (e : Byte) (s : State) : Prop := (s.ep e).encrypted = true ∧ s.session ≠ .initialized

theorem canSend_of_gated {e : Byte} {s : State} (h : gated e s) : canSend s e = false := by
  obtain ⟨henc, hsession⟩ := h
  refine Bool.eq_false_iff.mpr fun hsend => ?_
  obtain ⟨-, -, -, hgate⟩ := (canSend_eq_true_iff s e).mp hsend
  rw [gateOk, henc, Bool.not_true, Bool.false_or, beq_iff_eq] at hgate
  exact hsession hgate

theorem peerReset_rtxQueue_suffix (rtoInit : Nat) (x : Endpoint) : (x.peerReset rtoInit).rtxQueue <:+ x.rtxQueue := by
  unfold Endpoint.peerReset
  split
  · exact List.nil_suffix
  split
  · exact List.nil_suffix
  · exact List.suffix_refl _

/-- The stored frames after a step: a back part of those before it, or one more. -/
theorem Touch.rtxQueue_cases {i : Instr} {s : State} {e : Byte} {y : Endpoint} {q : List Bytes} {o : List Event}
    {n : Nat} (h : Touch i s e y q o n) : y.rtxQueue <:+ (s.ep e).rtxQueue ∨
      canSend s e = true ∧ ∃ E c P, E.frame = frameBytes e c P ∧ y.rtxQueue = (s.ep e).rtxQueue ++ [E] := by
  cases h with
  | sends P rest _ hsend => exact .inr ⟨hsend, _, _, P, rfl, rfl⟩
  | releases k => exact .inl (List.drop_suffix k _)
  | peerResets => exact .inl (peerReset_rtxQueue_suffix _ _)
  | opens | startsClosing | fails | givesUp => exact .inl List.nil_suffix
  | tells | emits | waits | acks | repeats | accepts | acceptsUI | opensUp | closes | leavesFailed | pops | expires
  | lapses => exact .inl (List.suffix_refl _)

theorem linkReset_rtxQueue_suffix (rtoInit : Nat) (x : Endpoint) : (x.linkReset rtoInit).rtxQueue <:+ x.rtxQueue := by
  unfold Endpoint.linkReset
  split
  · exact List.suffix_refl _
  · exact List.nil_suffix

theorem linkResetEndpoints_rtxQueue_suffix (first : Nat) (c : ResetCause) (s : State) (e : Byte) :
    ((linkResetEndpoints first c s).ep e).rtxQueue <:+ (s.ep e).rtxQueue := by
  rw [linkResetEndpoints_ep]
  split
  · exact linkReset_rtxQueue_suffix _ _
  · exact List.suffix_refl _

theorem Touch.setup_of_stepsAs {i j : Instr} {s u : State} {a e : Byte} {y : Endpoint} {q : List Bytes} {o : List Event}
    {n : Nat} (htouch : Touch j u a y q o n) (hj : stepsAs i s j) (hopen : ∀ w enc, i ≠ .openEp e w enc) (hae : e = a) :
    y.encrypted = (u.ep a).encrypted :=
  (htouch.setup fun w enc h => hopen w enc (hae ▸ stepsAs_openEp (h ▸ hj))).2

/-- While the gate is shut, a step on any endpoint leaves a back part of the stored frames of `e`, and the gate shut. -/
theorem Touch.keeps_gated {i j : Instr} {s u : State} {a e : Byte} {y : Endpoint} {q : List Bytes} {o : List Event}
    {n : Nat} (htouch : Touch j u a y q o n) (hj : stepsAs i s j) (hopen : ∀ w enc, i ≠ .openEp e w enc)
    (hu : gated e u) :
    gated e (u.touched a y q o n) ∧ ((u.touched a y q o n).ep e).rtxQueue <:+ (u.ep e).rtxQueue := by
  obtain ⟨henc, hsession⟩ := hu
  by_cases hea : e = a
  · rw [gated, hea, touched_ep_self]
    refine ⟨⟨(htouch.setup_of_stepsAs hj hopen hea).trans (hea ▸ henc), hsession⟩, ?_⟩
    rcases htouch.rtxQueue_cases with hsuffix | ⟨hsend, -⟩
    · exact hsuffix
    · rw [← hea, canSend_of_gated ⟨henc, hsession⟩] at hsend
      exact absurd hsend nofun
  · rw [gated, touched_ep_of_ne _ _ _ _ _ _ hea]
    exact ⟨⟨henc, hsession⟩, List.suffix_refl _⟩

theorem linkResetEndpoints_keeps_gated (first : Nat) (c : ResetCause) {u : State} {e : Byte} (hu : gated e u) :
    gated e (linkResetEndpoints first c u) := by
  obtain ⟨henc, hsession⟩ := hu
  obtain ⟨-, -, hsame, -⟩ := linkResetEndpoints_fields first c u
  refine ⟨?_, hsame ▸ hsession⟩
  rw [linkResetEndpoints_ep]
  split
  · exact (linkReset_setup _ _).2.trans henc
  · exact henc

/-- The gate stays shut and the stored frames are only let go. -/
theorem kept_gated {i : Instr} {e : Byte} (hopen : ∀ w enc, i ≠ .openEp e w enc) (hsec : i ≠ .secState .initialized)
    (s : State) : Kept i s fun u => gated e u ∧ (u.ep e).rtxQueue <:+ (s.ep e).rtxQueue where
  touch := fun j u a y q o n hj ⟨hu, hsuffix⟩ htouch => by
    obtain ⟨hgated, hless⟩ := htouch.keeps_gated hj hopen hu
    exact ⟨hgated, hless.trans hsuffix⟩
  reset := fun first c u ⟨hu, hsuffix⟩ =>
    ⟨linkResetEndpoints_keeps_gated first c hu, (linkResetEndpoints_rtxQueue_suffix first c u e).trans hsuffix⟩
  viol := fun _ hu => hu
  session := fun v hi ⟨⟨henc, _⟩, hsuffix⟩ =>
    ⟨⟨henc, fun hv => hsec (hi.trans (congrArg Instr.secState hv))⟩, hsuffix⟩
  tick := fun _ hs => hs
  pull := fun _ hs _ _ _ _ _ => by split <;> exact hs
  move := fun _ _ hs _ _ _ _ _ => hs

/-! ## The queued frames under the steps -/

/-- The frame is no I-frame of `e`, or one that is stored in `l`. -/
def harmless (e : Byte) (l : List RtxEntry) (F : Bytes) : Prop :=
  ∀ h, headerAt F = some h → h.addr = e → kind h.control = .i → ∃ E ∈ l, E.frame = F

theorem harmless_of_addr_ne {a e : Byte} (hae : a ≠ e) (l : List RtxEntry) (c : Byte) (P : Bytes) :
    harmless e l (frameBytes a c P) := by
  intro h hhead haddr
  rw [headerAt_frameBytes] at hhead
  obtain rfl := Option.some.inj hhead
  exact absurd haddr hae

theorem harmless_of_kind_ne {c : Byte} (hc : kind c ≠ .i) (e a : Byte) (l : List RtxEntry) (P : Bytes) :
    harmless e l (frameBytes a c P) := by
  intro h hhead _ hkind
  rw [headerAt_frameBytes] at hhead
  obtain rfl := Option.some.inj hhead
  exact absurd hkind hc

/-- Every stored frame carries the address of its endpoint. -/
def storedAddressed (s : State) : Prop := ∀ a, ∀ E ∈ (s.ep a).rtxQueue, ∃ c P, E.frame = frameBytes a c P

theorem Machine.State.Inv.storedAddressed {s : State} (h : s.Inv) : storedAddressed s := fun a E hE => by
  obtain ⟨ack, P, -, hF⟩ := (h.ep a).stored E hE
  exact ⟨_, P, hF⟩

theorem Touch.keeps_storedAddressed {i : Instr} {s : State} {e : Byte} {y : Endpoint} {q : List Bytes} {o : List Event}
    {n : Nat} (htouch : Touch i s e y q o n) (h : storedAddressed s) : storedAddressed (s.touched e y q o n) := by
  intro a E hE
  rw [touched_ep] at hE
  split at hE
  case isFalse => exact h a E hE
  case isTrue hae =>
    subst hae
    rcases htouch.rtxQueue_cases with hsuffix | ⟨-, E', c, P, hF, hqueue⟩
    · exact h a E (hsuffix.subset hE)
    · rw [hqueue, List.mem_append, List.mem_singleton] at hE
      rcases hE with hold | rfl
      · exact h a E hold
      · exact ⟨c, P, hF⟩

/-- A stored frame, of whatever endpoint. -/
theorem harmless_of_stored {s : State} (h : storedAddressed s) {a e : Byte} {E : RtxEntry} (hE : E ∈ (s.ep a).rtxQueue)
    {l : List RtxEntry} (hl : (s.ep e).rtxQueue ⊆ l) : harmless e l E.frame := by
  by_cases hae : a = e
  · subst hae
    exact fun _ _ _ _ => ⟨E, hl hE, rfl⟩
  · obtain ⟨c, P, hF⟩ := h a E hE
    rw [hF]
    exact harmless_of_addr_ne hae l c P

/-- What a step queues while the gate of `e` is shut. -/
theorem Touch.harmless {i : Instr} {s : State} {a e : Byte} {y : Endpoint} {q : List Bytes} {o : List Event} {n : Nat}
    (htouch : Touch i s a y q o n) (hgated : gated e s) (hstored : storedAddressed s) {l : List RtxEntry}
    (hl : (s.ep e).rtxQueue ⊆ l) : ∀ F ∈ q, harmless e l F := by
  cases htouch with
  | emits c P hknown hnotI => exact List.forall_mem_singleton.mpr (harmless_of_kind_ne hnotI e a l P)
  | sends P rest hpending hsend =>
    refine List.forall_mem_singleton.mpr (harmless_of_addr_ne ?_ l _ P)
    rintro rfl
    exact absurd (hsend.symm.trans (canSend_of_gated hgated)) nofun
  | repeats =>
    intro F hF
    obtain ⟨E, hE, rfl⟩ := List.mem_map.mp hF
    exact harmless_of_stored hstored hE hl
  | expires =>
    intro F hF
    obtain ⟨E, hE, rfl⟩ := List.mem_map.mp hF
    exact harmless_of_stored hstored (List.mem_of_mem_take hE) hl
  | tells | waits | releases | acks | accepts | acceptsUI | peerResets | opensUp | closes | opens | startsClosing
  | leavesFailed | fails | pops | givesUp | lapses => nofun

/-- The TX queue is a front part of `queue` and harmless frames behind it. -/
def frontAndHarmless (e : Byte) (l : List RtxEntry) (queue : List Bytes) (u : State) : Prop :=
  ∃ kept added, u.txQueue = kept ++ added ∧ kept <+: queue ∧ ∀ F ∈ added, harmless e l F

theorem frontAndHarmless_append {e : Byte} {l : List RtxEntry} {queue q : List Bytes} {u t : State}
    (h : frontAndHarmless e l queue u) (ht : t.txQueue = u.txQueue ++ q) (hq : ∀ F ∈ q, harmless e l F) :
    frontAndHarmless e l queue t := by
  obtain ⟨kept, added, hqueue, hkept, hadded⟩ := h
  exact ⟨kept, added ++ q, by rw [ht, hqueue, List.append_assoc], hkept, List.forall_mem_append.mpr ⟨hadded, hq⟩⟩

/-- The trim of a link reset. -/
theorem frontAndHarmless_reset {e : Byte} {l : List RtxEntry} {queue : List Bytes} {u : State}
    (h : frontAndHarmless e l queue u) (first : Nat) (c : ResetCause) :
    frontAndHarmless e l queue (linkResetEndpoints first c u) := by
  obtain ⟨kept, added, hqueue, hkept, hadded⟩ := h
  rw [linkResetEndpoints_eq]
  by_cases hsent : 0 < u.txPos
  · refine ⟨kept.take 1, added.take (1 - kept.length), ?_, (List.take_prefix 1 kept).trans hkept,
      fun F hF => hadded F (List.mem_of_mem_take hF)⟩
    change (if 0 < u.txPos then u.txQueue.take 1 else []) = _
    rw [if_pos hsent, hqueue, List.take_append]
  · refine ⟨[], [], ?_, List.nil_prefix, nofun⟩
    exact if_neg hsent

/-- The queued frames of every instruction but TX_PULL and an OPEN of the endpoint itself. -/
theorem kept_harmless {i : Instr} {e : Byte} (hopen : ∀ w enc, i ≠ .openEp e w enc) (hsec : i ≠ .secState .initialized)
    (hpull : i ≠ .txPull) (s : State) :
    Kept i s fun u => (gated e u ∧ (u.ep e).rtxQueue <:+ (s.ep e).rtxQueue) ∧ storedAddressed u ∧
      frontAndHarmless e (s.ep e).rtxQueue s.txQueue u where
  touch := fun j u a y q o n hj ⟨hgated, hstored, hfront⟩ htouch =>
    ⟨(kept_gated hopen hsec s).touch j u a y q o n hj hgated htouch, htouch.keeps_storedAddressed hstored,
      frontAndHarmless_append hfront rfl (htouch.harmless hgated.1 hstored hgated.2.subset)⟩
  reset := fun first c u ⟨hgated, hstored, hfront⟩ =>
    ⟨(kept_gated hopen hsec s).reset first c u hgated,
      fun a E hE => hstored a E ((linkResetEndpoints_rtxQueue_suffix first c u a).subset hE),
      frontAndHarmless_reset hfront first c⟩
  viol := fun _ hu => hu
  session := fun v hi ⟨hgated, hstored, hfront⟩ =>
    ⟨(kept_gated hopen hsec s).session v hi hgated, hstored, hfront⟩
  tick := fun _ hs => hs
  pull := fun hi => absurd hi hpull
  move := fun _ _ hs _ _ _ _ _ => hs

/-! ## TX_PULL and OPEN -/

theorem execTxPull_txQueue_suffix {s t : State} (h : execTxPull s = .next t) : t.txQueue <:+ s.txQueue := by
  unfold execTxPull at h
  split at h
  case h_1 =>
    obtain rfl := Host.Outcome.next.inj h
    exact List.suffix_refl _
  case h_2 F rest hq =>
    split at h
    case h_1 => exact absurd h nofun
    case h_2 =>
      obtain rfl := Host.Outcome.next.inj h
      split
      · change rest <:+ s.txQueue
        rw [hq]
        exact List.suffix_cons F rest
      · exact List.suffix_refl _

theorem systemReset_frontAndHarmless {e a : Byte} {l : List RtxEntry} {queue : List Bytes} {s : State}
    (h : frontAndHarmless e l queue s) : frontAndHarmless e l queue (systemReset a s) := by
  unfold systemReset
  split
  · exact frontAndHarmless_reset h 1 .systemEndpoint
  · exact h

theorem frontAndHarmless_refl (e : Byte) (l : List RtxEntry) (s : State) : frontAndHarmless e l s.txQueue s :=
  ⟨s.txQueue, [], (List.append_nil _).symm, List.prefix_refl _, nofun⟩

/-- OPEN of an endpoint lets go of all that it stored and queues a U-Reset. -/
theorem execOpen_harmless {e : Byte} {w : BitVec 3} {enc : Bool} {s t : State}
    (h : exec (.openEp e w enc) s = .next t) :
    (t.ep e).rtxQueue <:+ (s.ep e).rtxQueue ∧ frontAndHarmless e (s.ep e).rtxQueue s.txQueue t := by
  cases hrefusal : openRefusal e w (s.ep e).state with
  | some r =>
    rw [exec_openEp_of_refused hrefusal] at h
    obtain rfl := Host.Outcome.next.inj h
    exact ⟨List.suffix_refl _, frontAndHarmless_refl _ _ _⟩
  | none =>
    rw [exec_openEp_of_accepted hrefusal] at h
    have hreset := systemReset_frontAndHarmless (a := e) (frontAndHarmless_refl e (s.ep e).rtxQueue s)
    generalize systemReset e s = u at h hreset
    obtain rfl := Host.Outcome.next.inj h
    refine ⟨?_, frontAndHarmless_append hreset (q := [frameBytes e (ctrlU utypeURESET) []]) rfl
      (List.forall_mem_singleton.mpr (harmless_of_kind_ne (by decide) e e _ []))⟩
    have hep : (((sendURESET e (u.modEp e (Endpoint.openedWith s.cfg.rtoInit e w enc))).out (.epState e .opened)).out
        (.cmdOk .opOpen e)).ep e = (u.ep e).openedWith s.cfg.rtoInit e w enc := State.modEp_ep_self _ _ _
    rw [hep]
    exact List.nil_suffix

/-- Settles O56: by the gate for every instruction but an OPEN of the endpoint, which stores nothing. -/
theorem noEgressBeforeInitialized : Obligations.NoEgressBeforeInitialized := by
  unfold Obligations.NoEgressBeforeInitialized
  intro i e s t henc hsession hsec h
  have hgated : gated e s ∧ (s.ep e).rtxQueue <:+ (s.ep e).rtxQueue := ⟨⟨henc, hsession⟩, List.suffix_refl _⟩
  have hfrontGoal : frontAndHarmless e (s.ep e).rtxQueue s.txQueue t →
      ∃ kept added, t.txQueue = kept ++ added ∧ (kept <+: s.txQueue ∨ i = .txPull ∧ kept <:+ s.txQueue) ∧
        ∀ F ∈ added, harmless e (s.ep e).rtxQueue F := fun ⟨kept, added, hqueue, hkept, hadded⟩ =>
    ⟨kept, added, hqueue, .inl hkept, hadded⟩
  by_cases hopen : ∃ w enc, i = .openEp e w enc
  · obtain ⟨w, enc, rfl⟩ := hopen
    obtain ⟨hsuffix, hfront⟩ := execOpen_harmless h
    exact ⟨hsuffix, fun _ => hfrontGoal hfront⟩
  have hother : ∀ w enc, i ≠ .openEp e w enc := fun w enc hi => hopen ⟨w, enc, hi⟩
  refine ⟨((kept_gated hother hsec s).exec h hgated).2, fun hs => ?_⟩
  by_cases hpull : i = .txPull
  · subst hpull
    exact ⟨t.txQueue, [], (List.append_nil _).symm, .inr ⟨rfl, execTxPull_txQueue_suffix h⟩, nofun⟩
  · obtain ⟨-, -, hfront⟩ := (kept_harmless hother hsec hpull s).exec h
      ⟨hgated, hs.storedAddressed, frontAndHarmless_refl _ _ _⟩
    exact hfrontGoal hfront

end Sys2Proof
end

section
/-! SUPPORT. The loop of TICK: why its rounds are enough, and in which order two due timers act (44_arq.md R280,
R281). -/

namespace Sys2Proof

open Machine

/-! ## What one expiry does -/

/-- What the handler of a timer queues. -/
theorem fireTimer_txQueue (t : TimerRef) (s : State) : (fireTimer t s).txQueue = s.txQueue ++ timerFrames s t := by
  obtain ⟨e, k⟩ := t
  cases k with
  | rtx =>
    rw [fireTimer_rtx_eq_touched]
    by_cases hlast : s.cfg.maxRetries ≤ (s.ep e).retryCount
    · rw [if_pos (Nat.lt_succ_of_le hlast), touched_txQueue]
      exact congrArg (s.txQueue ++ ·) (if_pos hlast).symm
    · rw [if_neg (fun h => hlast (Nat.le_of_lt_succ h)), touched_txQueue]
      exact congrArg (s.txQueue ++ ·) (if_neg hlast).symm
  | ack =>
    rw [fireTimer_ack_eq_touched, ctrlS_rr]
    by_cases howed : (s.ep e).state = .opened ∧ (s.ep e).ackPending = true
    · rw [if_pos howed, touched_txQueue]
      exact congrArg (s.txQueue ++ ·) (if_pos howed).symm
    · rw [if_neg howed, touched_txQueue]
      exact congrArg (s.txQueue ++ ·) (if_neg howed).symm

/-- What the handler of a timer tells the host. -/
theorem fireTimer_output (t : TimerRef) (s : State) : (fireTimer t s).output = s.output ++ timerEvents s t := by
  obtain ⟨e, k⟩ := t
  cases k with
  | rtx =>
    rw [fireTimer_rtx_eq_touched]
    by_cases hlast : s.cfg.maxRetries ≤ (s.ep e).retryCount
    · rw [if_pos (Nat.lt_succ_of_le hlast), touched_output]
      exact congrArg (fun l => s.output ++ Event.timeout e ((s.ep e).retryCount + 1) :: l) (if_pos hlast).symm
    · rw [if_neg (fun h => hlast (Nat.le_of_lt_succ h)), touched_output]
      exact congrArg (fun l => s.output ++ Event.timeout e ((s.ep e).retryCount + 1) :: l) (if_neg hlast).symm
  | ack =>
    rw [fireTimer_ack_eq_touched]
    split
    · exact touched_output ..
    · exact touched_output ..

theorem fireTimer_cfg_now (t : TimerRef) (s : State) :
    (fireTimer t s).cfg = s.cfg ∧ (fireTimer t s).now = s.now := by
  obtain ⟨y, q, o, n, h⟩ := fireTimer_touches t s
  rw [h]
  exact ⟨rfl, rfl⟩

theorem fireTimer_ep_of_ne {t : TimerRef} {a : Byte} (h : a ≠ t.ep) (s : State) : (fireTimer t s).ep a = s.ep a := by
  obtain ⟨y, q, o, n, ht⟩ := fireTimer_touches t s
  rw [ht]
  exact State.setEp_ep_of_ne s y h

/-- The record after its ack timer has fired. -/
theorem fireTimer_ack_ep (e : Byte) (s : State) : ∃ owed,
    (fireTimer ⟨e, .ack⟩ s).ep e = { s.ep e with ackPending := owed, ackTimer := Timer.off } := by
  rw [fireTimer_ack_eq_touched]
  split
  · exact ⟨false, touched_ep_self ..⟩
  · exact ⟨(s.ep e).ackPending, touched_ep_self ..⟩

/-- The record after its rtx timer has fired. -/
theorem fireTimer_rtx_ep (e : Byte) (s : State) : (fireTimer ⟨e, .rtx⟩ s).ep e =
    if s.cfg.maxRetries ≤ (s.ep e).retryCount then (s.ep e).dropped s.cfg.rtoInit (.error .faultNoAck)
    else (s.ep e).backsOff s := by
  rw [fireTimer_rtx_eq_touched]
  by_cases hlast : s.cfg.maxRetries ≤ (s.ep e).retryCount
  · rw [if_pos (Nat.lt_succ_of_le hlast), if_pos hlast, touched_ep_self]
  · rw [if_neg (fun h => hlast (Nat.le_of_lt_succ h)), if_neg hlast, touched_ep_self]

/-! ## The rounds of the loop (log 10) -/

/-- How often the due timers of a record can still fire. -/
def load (cfg : Config) (now : Nat) (x : Endpoint) : Nat :=
  (if isDue now x.rtxTimer then cfg.maxRetries - x.retryCount + 1 else 0) + if isDue now x.ackTimer then 1 else 0

theorem load_le (cfg : Config) (now : Nat) (x : Endpoint) : load cfg now x ≤ cfg.maxRetries + 2 := by
  unfold load
  split <;> split <;> omega

theorem load_dropped (cfg : Config) (now rtoInit : Nat) (st : EpState) (x : Endpoint) :
    load cfg now (x.dropped rtoInit st) = 0 := rfl

/-- With the ack timer cancelled only the rtx timer counts. -/
theorem load_ackOff (cfg : Config) (now : Nat) (x : Endpoint) (owed : Bool) :
    load cfg now { x with ackPending := owed, ackTimer := Timer.off } =
      if isDue now x.rtxTimer then cfg.maxRetries - x.retryCount + 1 else 0 := rfl

theorem load_backsOff {s : State} {x : Endpoint} (hleft : x.retryCount < s.cfg.maxRetries) :
    load s.cfg s.now (x.backsOff s) ≤
      s.cfg.maxRetries - x.retryCount + if isDue s.now x.ackTimer then 1 else 0 := by
  change (if isDue s.now (s.armedTimer (min (2 * x.rto) s.cfg.rtoMax)) then
    s.cfg.maxRetries - (x.retryCount + 1) + 1 else 0) + (if isDue s.now x.ackTimer then 1 else 0) ≤ _
  refine Nat.add_le_add_right ?_ _
  split <;> omega

/-- The expiry of a due timer uses up at least one of the firings. -/
theorem load_fireTimer_lt {t : TimerRef} {s : State} (hdue : isDue s.now (timerOf s t) = true) :
    load s.cfg s.now ((fireTimer t s).ep t.ep) < load s.cfg s.now (s.ep t.ep) := by
  obtain ⟨e, k⟩ := t
  cases k with
  | ack =>
    have hack : isDue s.now (s.ep e).ackTimer = true := hdue
    obtain ⟨owed, hep⟩ := fireTimer_ack_ep e s
    rw [hep, load_ackOff, load, hack]
    exact Nat.lt_succ_self _
  | rtx =>
    have hrtx : isDue s.now (s.ep e).rtxTimer = true := hdue
    have hload : load s.cfg s.now (s.ep e) = s.cfg.maxRetries - (s.ep e).retryCount + 1 +
        if isDue s.now (s.ep e).ackTimer then 1 else 0 := by
      rw [load, hrtx, if_pos rfl]
    rw [fireTimer_rtx_ep, hload]
    split
    case isTrue =>
      rw [load_dropped]
      omega
    case isFalse hleft =>
      have hback := load_backsOff (s := s) (x := s.ep e) (Nat.lt_of_not_le hleft)
      omega

/-- The firings that are left in the whole block. -/
def totalLoad (s : State) : Nat := ((endpointsFrom 0).map fun e => load s.cfg s.now (s.ep e)).sum

theorem sum_map_le_mul {α : Type} {f : α → Nat} {b : Nat} (h : ∀ a, f a ≤ b) (l : List α) :
    (l.map f).sum ≤ l.length * b := by
  induction l with
  | nil => exact Nat.zero_le _
  | cons a l ih =>
    rw [List.map_cons, List.sum_cons, List.length_cons, Nat.succ_mul, Nat.add_comm]
    exact Nat.add_le_add ih (h a)

theorem sum_map_le_sum_map {α : Type} {f g : α → Nat} (h : ∀ a, f a ≤ g a) (l : List α) :
    (l.map f).sum ≤ (l.map g).sum := by
  induction l with
  | nil => exact Nat.le_refl _
  | cons a l ih =>
    rw [List.map_cons, List.map_cons, List.sum_cons, List.sum_cons]
    exact Nat.add_le_add (h a) ih

theorem sum_map_lt_sum_map {α : Type} {f g : α → Nat} (h : ∀ a, f a ≤ g a) {l : List α} {a : α} (ha : a ∈ l)
    (hlt : f a < g a) : (l.map f).sum < (l.map g).sum := by
  induction l with
  | nil => exact absurd ha List.not_mem_nil
  | cons b l ih =>
    rw [List.map_cons, List.map_cons, List.sum_cons, List.sum_cons]
    rcases List.mem_cons.mp ha with rfl | hmem
    · exact Nat.add_lt_add_of_lt_of_le hlt (sum_map_le_sum_map h l)
    · exact Nat.add_lt_add_of_le_of_lt (h b) (ih hmem)

theorem totalLoad_le_tickRounds (s : State) : totalLoad s ≤ tickRounds s.cfg := by
  have hcount : (endpointsFrom 0).length = 256 := by
    simp only [endpointsFrom, List.length_map, List.length_drop, List.length_range, Nat.sub_zero]
  have hsum : totalLoad s ≤ (endpointsFrom 0).length * (s.cfg.maxRetries + 2) :=
    sum_map_le_mul (fun e => load_le s.cfg s.now (s.ep e)) (endpointsFrom 0)
  rw [hcount] at hsum
  exact Nat.le_trans hsum (Nat.mul_le_mul_left 256 (Nat.le_succ _))

theorem totalLoad_fireTimer_lt {t : TimerRef} {s : State} (hdue : isDue s.now (timerOf s t) = true) :
    totalLoad (fireTimer t s) < totalLoad s := by
  obtain ⟨hcfg, hnow⟩ := fireTimer_cfg_now t s
  rw [totalLoad, totalLoad, hcfg, hnow]
  refine sum_map_lt_sum_map (fun e => ?_) (a := t.ep) ((mem_endpointsFrom 0 _).mpr (Nat.zero_le _)) (load_fireTimer_lt hdue)
  by_cases he : e = t.ep
  · rw [he]
    exact Nat.le_of_lt (load_fireTimer_lt hdue)
  · exact Nat.le_of_eq (congrArg (load s.cfg s.now) (fireTimer_ep_of_ne he s))

/-- With as many rounds as firings are left, the loop runs until no timer is due. -/
theorem firingRun_fireDue (n : Nat) (s : State) (h : totalLoad s ≤ n) : FiringRun s (fireDue n s) := by
  induction n generalizing s with
  | zero =>
    refine .stop s fun t => Bool.eq_false_iff.mpr fun hdue => ?_
    exact Nat.not_lt_zero _ (Nat.lt_of_lt_of_le (totalLoad_fireTimer_lt hdue) h)
  | succ n ih =>
    cases hnext : nextDue s with
    | none =>
      have hspec := nextDue_spec s
      rw [hnext] at hspec
      rw [fireDue_of_none _ s hnext]
      exact .stop s hspec
    | some t =>
      have hfires := firesNext_of_nextDue hnext
      rw [fireDue_of_some n s t hnext]
      exact .fire s _ t hfires (ih _ (Nat.le_of_lt_succ (Nat.lt_of_lt_of_le (totalLoad_fireTimer_lt hfires.1) h)))

theorem firingRun_tick (s : State) :
    FiringRun (s.setNow (s.now + 1)) (fireDue (tickRounds s.cfg) (s.setNow (s.now + 1))) :=
  firingRun_fireDue _ _ (totalLoad_le_tickRounds (s.setNow (s.now + 1)))

theorem Machine.FiringRun.nothing_due {s t : State} (h : FiringRun s t) : ∀ u, isDue t.now (timerOf t u) = false := by
  induction h with
  | stop s hnone => exact hnone
  | fire s s' t hfires hrun ih => exact ih

/-- Settles O50: the loop runs until no timer is due. -/
theorem tickLeavesNothingDue : Obligations.TickLeavesNothingDue := by
  unfold Obligations.TickLeavesNothingDue
  intro s t h
  refine ⟨now_after_tick h, fun u => ?_⟩
  obtain rfl := Host.Outcome.next.inj h
  exact (isDue_eq_false_iff _ _).mp ((firingRun_tick s).nothing_due u)

/-! ## Two due timers (44_arq.md R281) -/

/-- Where only `a` and `b` can be due and `a` is ahead, `a` fires next. -/
theorem nextDue_of_ahead {s : State} {a b : TimerRef} (hdue : isDue s.now (timerOf s a) = true) (hahead : ahead s a b)
    (hrest : ∀ v, v ≠ a → v ≠ b → isDue s.now (timerOf s v) = false) : nextDue s = some a := by
  cases hnext : nextDue s with
  | none =>
    have hspec := nextDue_spec s
    rw [hnext] at hspec
    exact absurd hdue (ne_true_of_eq_false (hspec a))
  | some v =>
    obtain ⟨hv, hfirst⟩ := firesNext_of_nextDue hnext
    by_cases hva : v = a
    · rw [hva]
    by_cases hvb : v = b
    · subst hvb
      have hle := hfirst a hdue
      unfold ahead at hahead
      omega
    · exact absurd hv (ne_true_of_eq_false (hrest v hva hvb))

/-- An expiry leaves every other timer or cancels it. -/
theorem timerOf_fireTimer {a v : TimerRef} (hva : v ≠ a) (s : State) :
    timerOf (fireTimer a s) v = timerOf s v ∨ timerOf (fireTimer a s) v = Timer.off := by
  obtain ⟨e, k⟩ := a
  obtain ⟨e', k'⟩ := v
  rw [timerOf_eq, timerOf_eq]
  by_cases he : e' = e
  · subst he
    cases k with
    | ack =>
      obtain ⟨owed, hep⟩ := fireTimer_ack_ep e' s
      rw [hep]
      cases k' with
      | ack => exact absurd rfl hva
      | rtx => exact .inl rfl
    | rtx =>
      rw [fireTimer_rtx_ep]
      cases k' with
      | rtx => exact absurd rfl hva
      | ack =>
        split
        · exact .inr rfl
        · exact .inl rfl
  · rw [fireTimer_ep_of_ne he]
    exact .inl rfl

theorem isDue_fireTimer_of_ne {a v : TimerRef} (hva : v ≠ a) {s : State} (h : isDue s.now (timerOf s v) = false) :
    isDue (fireTimer a s).now (timerOf (fireTimer a s) v) = false := by
  rw [(fireTimer_cfg_now a s).2]
  rcases timerOf_fireTimer hva s with hsame | hoff
  · rw [hsame, h]
  · rw [hoff, isDue_off]

/-- A timer that has fired is not due again at once, as no delay is 0. -/
theorem isDue_fireTimer_self {a : TimerRef} {s : State} (hrto : a.kind = .rtx → 1 ≤ (s.ep a.ep).rto)
    (hmax : 1 ≤ s.cfg.rtoMax) : isDue (fireTimer a s).now (timerOf (fireTimer a s) a) = false := by
  obtain ⟨e, k⟩ := a
  rw [(fireTimer_cfg_now _ s).2, timerOf_eq]
  cases k with
  | ack =>
    obtain ⟨owed, hep⟩ := fireTimer_ack_ep e s
    rw [hep]
    rfl
  | rtx =>
    rw [fireTimer_rtx_ep]
    split
    · rfl
    · have hpos : 1 ≤ (s.ep e).rto := hrto rfl
      refine (isDue_eq_false_iff _ _).mpr fun _ => ?_
      change s.now < s.now + min (2 * (s.ep e).rto) s.cfg.rtoMax
      omega

/-- The timer, what its handler does and, for an rtx timer, its delay are the same in both states. -/
structure ActsAlike (b : TimerRef) (s t : State) : Prop where
  timer : timerOf t b = timerOf s b
  frames : timerFrames t b = timerFrames s b
  events : timerEvents t b = timerEvents s b
  rto : b.kind = .rtx → (t.ep b.ep).rto = (s.ep b.ep).rto

/-- An expiry leaves what another timer will do, unless it fails that timer's endpoint. -/
theorem actsAlike_fireTimer {a b : TimerRef} (hba : b ≠ a) {s : State}
    (hlives : ¬(a.kind = .rtx ∧ a.ep = b.ep ∧ s.cfg.maxRetries ≤ (s.ep a.ep).retryCount)) :
    ActsAlike b s (fireTimer a s) := by
  obtain ⟨e, k⟩ := a
  obtain ⟨e', k'⟩ := b
  by_cases he : e' = e
  · subst he
    obtain ⟨hcfg, -⟩ := fireTimer_cfg_now ⟨e', k⟩ s
    cases k with
    | ack =>
      obtain ⟨owed, hep⟩ := fireTimer_ack_ep e' s
      cases k' with
      | ack => exact absurd rfl hba
      | rtx =>
        refine ⟨?_, ?_, ?_, fun _ => ?_⟩
        · rw [timerOf_eq, timerOf_eq, hep]
          rfl
        · simp only [timerFrames, hep, hcfg]
        · simp only [timerEvents, hep, hcfg]
        · simp only [hep]
    | rtx =>
      have hep := fireTimer_rtx_ep e' s
      rw [if_neg fun hlast => hlives ⟨rfl, rfl, hlast⟩] at hep
      cases k' with
      | rtx => exact absurd rfl hba
      | ack =>
        refine ⟨?_, ?_, rfl, nofun⟩
        · rw [timerOf_eq, timerOf_eq, hep]
          rfl
        · simp only [timerFrames, hep, Endpoint.backsOff]
  · have hep := fireTimer_ep_of_ne (t := ⟨e, k⟩) he s
    obtain ⟨hcfg, -⟩ := fireTimer_cfg_now ⟨e, k⟩ s
    refine ⟨?_, ?_, ?_, fun _ => ?_⟩
    · rw [timerOf_eq, timerOf_eq, hep]
    · simp only [timerFrames, hep, hcfg]
    · simp only [timerEvents, hep, hcfg]
    · simp only [hep]

/-- TICK has rounds for two expiries and more. -/
theorem tickRounds_eq (c : Config) : ∃ n, tickRounds c = n + 2 :=
  ⟨256 * (c.maxRetries + 3) - 2, by unfold tickRounds; omega⟩

theorem ne_of_ahead {s : State} {a b : TimerRef} (h : ahead s a b) : b ≠ a := by
  rintro rfl
  unfold ahead at h
  omega

/-- Of two due timers the one ahead fires, then the other, and nothing more. -/
theorem fireDue_of_two_due {u : State} {a b : TimerRef} (ha : isDue u.now (timerOf u a) = true)
    (hb : isDue u.now (timerOf u b) = true) (hahead : ahead u a b)
    (hrest : ∀ v, v ≠ a → v ≠ b → isDue u.now (timerOf u v) = false) (hrtoA : 1 ≤ (u.ep a.ep).rto)
    (hrtoB : 1 ≤ (u.ep b.ep).rto) (hmax : 1 ≤ u.cfg.rtoMax) (halike : ActsAlike b u (fireTimer a u)) (n : Nat) :
    fireDue (n + 2) u = fireTimer b (fireTimer a u) := by
  obtain ⟨hcfg, hnow⟩ := fireTimer_cfg_now a u
  have hdueB : isDue (fireTimer a u).now (timerOf (fireTimer a u) b) = true := by
    rw [halike.timer, hnow, hb]
  have hleft : ∀ v, v ≠ b → isDue (fireTimer a u).now (timerOf (fireTimer a u) v) = false := by
    intro v hvb
    by_cases hva : v = a
    · rw [hva]
      exact isDue_fireTimer_self (fun _ => hrtoA) hmax
    · exact isDue_fireTimer_of_ne hva (hrest v hva hvb)
  have hdone : ∀ v, isDue (fireTimer b (fireTimer a u)).now (timerOf (fireTimer b (fireTimer a u)) v) = false := by
    intro v
    by_cases hvb : v = b
    · rw [hvb]
      exact isDue_fireTimer_self (fun hk => by rw [halike.rto hk]; exact hrtoB) (by rw [hcfg]; exact hmax)
    · exact isDue_fireTimer_of_ne hvb (hleft v hvb)
  rw [fireDue_of_some _ _ _ (nextDue_of_ahead ha hahead hrest), fireDue_of_some _ _ _ (nextDue_eq_some hdueB hleft),
    fireDue_of_none _ _ (nextDue_eq_none hdone)]

/-- Two timers due at a TICK fire in their order. -/
theorem tick_of_two_due {s : State} {a b : TimerRef} (ha : dueAtTick s a) (hb : dueAtTick s b) (hahead : ahead s a b)
    (hrest : noneDueBut s a b) (hrtoA : 1 ≤ (s.ep a.ep).rto) (hrtoB : 1 ≤ (s.ep b.ep).rto) (hmax : 1 ≤ s.cfg.rtoMax)
    (hlives : ¬(a.kind = .rtx ∧ a.ep = b.ep ∧ s.cfg.maxRetries ≤ (s.ep a.ep).retryCount)) :
    ∃ t, exec .tick s = .next t ∧ t.txQueue = s.txQueue ++ timerFrames s a ++ timerFrames s b ∧
      t.output = s.output ++ timerEvents s a ++ timerEvents s b := by
  have halike : ActsAlike b (s.setNow (s.now + 1)) (fireTimer a (s.setNow (s.now + 1))) :=
    actsAlike_fireTimer (ne_of_ahead hahead) hlives
  obtain ⟨n, hn⟩ := tickRounds_eq s.cfg
  have hloop := fireDue_of_two_due (u := s.setNow (s.now + 1)) ((isDue_eq_true_iff _ _).mpr ha)
    ((isDue_eq_true_iff _ _).mpr hb) hahead (fun v hva hvb => (isDue_eq_false_iff _ _).mpr (hrest v hva hvb)) hrtoA hrtoB
    hmax halike n
  rw [← hn] at hloop
  refine ⟨_, congrArg Host.Outcome.next hloop, ?_, ?_⟩
  · rw [fireTimer_txQueue, fireTimer_txQueue, halike.frames]
    rfl
  · rw [fireTimer_output, fireTimer_output, halike.events]
    rfl

/-- An rtx timer that fails its endpoint is the last to fire: it cancels the ack timer due behind it. -/
theorem fireDue_of_failing_ahead {u : State} {e : Byte} (hrtx : isDue u.now (timerOf u ⟨e, .rtx⟩) = true)
    (hahead : ahead u ⟨e, .rtx⟩ ⟨e, .ack⟩)
    (hrest : ∀ v, v ≠ ⟨e, .rtx⟩ → v ≠ ⟨e, .ack⟩ → isDue u.now (timerOf u v) = false)
    (hlast : u.cfg.maxRetries ≤ (u.ep e).retryCount) (n : Nat) :
    fireDue (n + 1) u = u.touched e ((u.ep e).dropped u.cfg.rtoInit (.error .faultNoAck)) []
      [.timeout e ((u.ep e).retryCount + 1), .epState e (.error .faultNoAck)] 0 := by
  have hep := fireTimer_rtx_ep e u
  rw [if_pos hlast] at hep
  have hdone : ∀ v, isDue (fireTimer ⟨e, .rtx⟩ u).now (timerOf (fireTimer ⟨e, .rtx⟩ u) v) = false := by
    intro v
    by_cases hown : v.ep = e
    · obtain ⟨e', k⟩ := v
      obtain rfl : e' = e := hown
      rw [timerOf_eq, hep]
      cases k with
      | rtx => exact isDue_off _
      | ack => exact isDue_off _
    · have hne : ∀ k, v ≠ ⟨e, k⟩ := fun k hv => hown (by rw [hv])
      exact isDue_fireTimer_of_ne (hne .rtx) (hrest v (hne .rtx) (hne .ack))
  rw [fireDue_of_some _ _ _ (nextDue_of_ahead hrtx hahead hrest), fireDue_of_none _ _ (nextDue_eq_none hdone),
    fireTimer_rtx_eq_touched, if_pos (Nat.lt_succ_of_le hlast)]

/-- Settles O51: the loop as a relation, two timers in their order, and the cancelled ack timer. -/
theorem timersFireInOrder : Obligations.TimersFireInOrder := by
  unfold Obligations.TimersFireInOrder
  refine ⟨fun s => ⟨_, rfl, firingRun_tick s⟩, fun s a b ha hb hahead hrest hrtoA hrtoB hmax hlives =>
    tick_of_two_due ha hb hahead hrest hrtoA hrtoB hmax hlives, ?_⟩
  intro s e x hrtx _ hahead hrest hlast
  obtain ⟨n, hn⟩ := tickRounds_eq s.cfg
  have hloop := fireDue_of_failing_ahead (u := s.setNow (s.now + 1)) ((isDue_eq_true_iff _ _).mpr hrtx) hahead
    (fun v hva hvb => (isDue_eq_false_iff _ _).mpr (hrest v hva hvb)) hlast (n + 1)
  rw [← hn, State.touched, List.append_nil] at hloop
  exact congrArg Host.Outcome.next hloop

end Sys2Proof
end
